-- ==== Sys2Proof/Word.lean ====
section
/-! DEFINITION. The word types of the block and the notation of rules R8 and R9. -/

namespace Sys2Proof

/-- A register value or a bus value: 32 bits, bit 0 least significant (R7 `REG_WIDTH`, R8). -/
abbrev Word := BitVec 32

/-- One frame on the serial line, and one byte lane of the bus (R7 `FRAME_BITS`). -/
abbrev Byte := BitVec 8

/-- A window offset 0x000..0x3FF, or a host selector (R60, R80). -/
abbrev Offset := BitVec 10

/-- The 14-bit access descriptor (R80, R91). -/
abbrev Descriptor := BitVec 14

/-- `WINDOW_SIZE`, in bytes (R7, R60). -/
def windowSize : Nat := 0x400

end Sys2Proof
end

