-- ==== Sys2Proof/Syntax.lean ====
section
/-! DEFINITION. What the block is given: requests (a descriptor with its operand) and the operations they stand for,
one constructor of `Instr` per row of spec/opcode_table.json. -/

namespace Sys2Proof

/-- The five registers, in the order CR1, CR2, SR, DR, CSCTRL: the whole state of one block (R20) and therefore also
a snapshot (R44, R180). -/
structure Regs where
  /-- CR1, mode control, offset 0x00 (R23). -/
  cr1 : Word
  /-- CR2, interrupt enables, offset 0x04 (R25). -/
  cr2 : Word
  /-- SR, status, offset 0x08 (R28). -/
  sr : Word
  /-- DR, data, offset 0x0C (R35). -/
  dr : Word
  /-- CSCTRL, chip-select control, offset 0x10 (R36); the requester's CSR (90_conflicts.md C2). -/
  csctrl : Word
deriving DecidableEq, Repr

/-- The operand that comes with a descriptor (R80). -/
inductive Operand where
  /-- Bus reads, RESET and SAVE carry nothing. -/
  | nothing
  /-- A bus write carries a 32-bit value. -/
  | value (val : Word)
  /-- RESTORE carries a snapshot. -/
  | snapshot (snap : Regs)
deriving DecidableEq, Repr

/-- An operation as it arrives: "a 14-bit access descriptor `d` together with an operand" (R80). -/
structure Request where
  desc : Descriptor
  operand : Operand
deriving DecidableEq, Repr

/-- The operations of the map (R87). -/
inductive Instr where
  /-- RD_CR1, `RD CR1` (R101). -/
  | rdCr1
  /-- WR_CR1, `WR CR1, val` (R102). -/
  | wrCr1 (val : Word)
  /-- RD_CR2, `RD CR2` (R103). -/
  | rdCr2
  /-- WR_CR2, `WR CR2, val` (R104). -/
  | wrCr2 (val : Word)
  /-- RD_SR, `RD SR` (R105). -/
  | rdSr
  /-- WR_SR, `WR SR, val` (R106). -/
  | wrSr (val : Word)
  /-- RD_DR, `RD DR` (R107). -/
  | rdDr
  /-- WR_DR, `WR DR, val` (R108). -/
  | wrDr (val : Word)
  /-- RD_CSCTRL, `RD CSCTRL` (R109). -/
  | rdCsctrl
  /-- WR_CSCTRL, `WR CSCTRL, val` (R110). -/
  | wrCsctrl (val : Word)
  /-- RD_INVALID, `RD @off` (R111). -/
  | rdInvalid (off : Offset)
  /-- WR_INVALID, `WR @off, val` (R112). -/
  | wrInvalid (off : Offset) (val : Word)
  /-- RESET (R240). -/
  | reset
  /-- SAVE (R180). -/
  | save
  /-- RESTORE with its five values (R181). -/
  | restore (snap : Regs)
deriving DecidableEq, Repr

/-- Why a request stands for no operation (R88): the model's mark, not a behaviour of the block (R16). -/
inductive Reject where
  /-- `cls` = 3, with any other fields. -/
  | reservedClass
  /-- `cls` 0 or 1 with `sz` other than 2: a 1-, 2- or 8-byte bus access. -/
  | accessWidth
  /-- `cls` 2 with `sz` other than 0. -/
  | hostWidth
  /-- `cls` 2, `sz` 0, with `off` from 0x003 to 0x3FF. -/
  | hostSelector
  /-- The operand is not of the kind R80 gives this descriptor, so the pair is no operation (log entry 3). -/
  | operandKind
deriving DecidableEq, Repr

end Sys2Proof
end

