-- ==== Sys2Proof/WellFormed.lean ====
section
/-! DEFINITION. Which terms of `Instr` stand for an operation of the map: an invalid-access operation names an offset
that is not one of the five register offsets (R61, R62, R83). Every other operand admits every value of its width
(R85, R181). -/

namespace Sys2Proof

/-- The five register offsets: CR1, CR2, SR, DR, CSCTRL (R61). -/
def registerOffsets : List Offset := [0x000#10, 0x004#10, 0x008#10, 0x00C#10, 0x010#10]

/-- Whether an offset selects a register, by exact equality (R62). -/
def isRegisterOffset (off : Offset) : Bool := registerOffsets.contains off

/-- The check on one operation. -/
def Instr.wellFormed : Instr → Bool
  | .rdCr1 => true
  | .wrCr1 _ => true
  | .rdCr2 => true
  | .wrCr2 _ => true
  | .rdSr => true
  | .wrSr _ => true
  | .rdDr => true
  | .wrDr _ => true
  | .rdCsctrl => true
  | .wrCsctrl _ => true
  | .rdInvalid off => !isRegisterOffset off
  | .wrInvalid off _ => !isRegisterOffset off
  | .reset => true
  | .save => true
  | .restore _ => true

/-- `Instr.wellFormed` as a proposition. -/
abbrev Instr.WellFormed (i : Instr) : Prop := i.wellFormed = true

end Sys2Proof
end

