-- ==== Sys2Proof/Decode.lean ====
section
/-! DEFINITION. The decoder of rules R80 to R91, total on every request and rejecting by name, the encoder written
from the field columns of the operation map (R87), and the Register File's dispatcher (R100). -/

namespace Sys2Proof

/-! ### The descriptor's fields (R80) -/

/-- `sz`, bits 13:12: log2 of the access width in bytes. -/
def descSz (d : Descriptor) : BitVec 2 := d.extractLsb' 12 2

/-- `cls`, bits 11:10: 0 bus read, 1 bus write, 2 host operation, 3 reserved (R81). -/
def descCls (d : Descriptor) : BitVec 2 := d.extractLsb' 10 2

/-- `off`, bits 9:0: the window offset, or the host selector. -/
def descOff (d : Descriptor) : Offset := d.extractLsb' 0 10

/-- The descriptor with the given fields. -/
def mkDescriptor (sz cls : BitVec 2) (off : Offset) : Descriptor :=
  (sz.setWidth 14 <<< 12) ||| (cls.setWidth 14 <<< 10) ||| off.setWidth 14

/-! ### The operation map (R87) -/

/-- The rows of the map, by mnemonic. -/
inductive Op where
  | rdCr1 | wrCr1 | rdCr2 | wrCr2 | rdSr | wrSr | rdDr | wrDr | rdCsctrl | wrCsctrl
  | rdInvalid | wrInvalid | reset | save | restore
deriving DecidableEq, Repr

/-- One row: a descriptor `d` matches it when `(d & mask) = pattern`. -/
structure MapRow where
  op : Op
  pattern : Descriptor
  mask : Descriptor
deriving DecidableEq, Repr

/-- The thirteen rows of priority "exact". -/
def exactRows : List MapRow :=
  [ ⟨.rdCr1,    0x2000#14, 0x3FFF#14⟩, ⟨.wrCr1,    0x2400#14, 0x3FFF#14⟩,
    ⟨.rdCr2,    0x2004#14, 0x3FFF#14⟩, ⟨.wrCr2,    0x2404#14, 0x3FFF#14⟩,
    ⟨.rdSr,     0x2008#14, 0x3FFF#14⟩, ⟨.wrSr,     0x2408#14, 0x3FFF#14⟩,
    ⟨.rdDr,     0x200C#14, 0x3FFF#14⟩, ⟨.wrDr,     0x240C#14, 0x3FFF#14⟩,
    ⟨.rdCsctrl, 0x2010#14, 0x3FFF#14⟩, ⟨.wrCsctrl, 0x2410#14, 0x3FFF#14⟩,
    ⟨.reset,    0x0800#14, 0x3FFF#14⟩, ⟨.save,     0x0801#14, 0x3FFF#14⟩,
    ⟨.restore,  0x0802#14, 0x3FFF#14⟩ ]

/-- The two rows of priority "catch-all". -/
def catchAllRows : List MapRow :=
  [ ⟨.rdInvalid, 0x2000#14, 0x3C00#14⟩, ⟨.wrInvalid, 0x2400#14, 0x3C00#14⟩ ]

/-- Whether a descriptor matches a row (R87). -/
def rowMatches (d : Descriptor) (r : MapRow) : Bool := d &&& r.mask == r.pattern

/-- Decode order (R86): the exact rows first, then the catch-all rows. -/
def selectOp (d : Descriptor) : Option Op :=
  match exactRows.find? (rowMatches d) with
  | some r => some r.op
  | none =>
    match catchAllRows.find? (rowMatches d) with
    | some r => some r.op
    | none => none

/-- The name of the refusal of a descriptor that matches no row (R88). -/
def rejectReason (d : Descriptor) : Reject :=
  if descCls d = 3#2 then .reservedClass
  else if descCls d = 2#2 then
    if descSz d = 0#2 then .hostSelector else .hostWidth
  else .accessWidth

/-! ### Operands (R80, R85) -/

/-- An operation without operand. -/
def withNothing (i : Instr) : Operand → Except Reject Instr
  | .nothing => .ok i
  | .value _ => .error .operandKind
  | .snapshot _ => .error .operandKind

/-- An operation with a 32-bit value, taken as it stands (R85). -/
def withValue (f : Word → Instr) : Operand → Except Reject Instr
  | .nothing => .error .operandKind
  | .value v => .ok (f v)
  | .snapshot _ => .error .operandKind

/-- An operation with a snapshot (R80). -/
def withSnapshot (f : Regs → Instr) : Operand → Except Reject Instr
  | .nothing => .error .operandKind
  | .value _ => .error .operandKind
  | .snapshot r => .ok (f r)

/-- The operation of a selected row, given the offset field and the operand. -/
def assemble (off : Offset) : Op → Operand → Except Reject Instr
  | .rdCr1 => withNothing .rdCr1
  | .wrCr1 => withValue .wrCr1
  | .rdCr2 => withNothing .rdCr2
  | .wrCr2 => withValue .wrCr2
  | .rdSr => withNothing .rdSr
  | .wrSr => withValue .wrSr
  | .rdDr => withNothing .rdDr
  | .wrDr => withValue .wrDr
  | .rdCsctrl => withNothing .rdCsctrl
  | .wrCsctrl => withValue .wrCsctrl
  | .rdInvalid => withNothing (.rdInvalid off)
  | .wrInvalid => withValue (.wrInvalid off)
  | .reset => withNothing .reset
  | .save => withNothing .save
  | .restore => withSnapshot .restore

/-- The decoder: one verdict for every request (R86), an operation or a named refusal. -/
def decode (r : Request) : Except Reject Instr :=
  match selectOp r.desc with
  | some op => assemble (descOff r.desc) op r.operand
  | none => .error (rejectReason r.desc)

/-! ### The encoder -/

/-- The row an operation belongs to. -/
def Instr.op : Instr → Op
  | .rdCr1 => .rdCr1
  | .wrCr1 _ => .wrCr1
  | .rdCr2 => .rdCr2
  | .wrCr2 _ => .wrCr2
  | .rdSr => .rdSr
  | .wrSr _ => .wrSr
  | .rdDr => .rdDr
  | .wrDr _ => .wrDr
  | .rdCsctrl => .rdCsctrl
  | .wrCsctrl _ => .wrCsctrl
  | .rdInvalid _ => .rdInvalid
  | .wrInvalid _ _ => .wrInvalid
  | .reset => .reset
  | .save => .save
  | .restore _ => .restore

/-- A descriptor of a 4-byte bus read (R81, R82). -/
def readDescriptor (off : Offset) : Descriptor := mkDescriptor 2#2 0#2 off

/-- A descriptor of a 4-byte bus write (R81, R82). -/
def writeDescriptor (off : Offset) : Descriptor := mkDescriptor 2#2 1#2 off

/-- A descriptor of a host operation (R82, R84). -/
def hostDescriptor (selector : Offset) : Descriptor := mkDescriptor 0#2 2#2 selector

/-- The encoder, from the columns `sz`, `cls` and `off` of the operation map (R87). -/
def encode : Instr → Request
  | .rdCr1 => ⟨readDescriptor 0x000#10, .nothing⟩
  | .wrCr1 v => ⟨writeDescriptor 0x000#10, .value v⟩
  | .rdCr2 => ⟨readDescriptor 0x004#10, .nothing⟩
  | .wrCr2 v => ⟨writeDescriptor 0x004#10, .value v⟩
  | .rdSr => ⟨readDescriptor 0x008#10, .nothing⟩
  | .wrSr v => ⟨writeDescriptor 0x008#10, .value v⟩
  | .rdDr => ⟨readDescriptor 0x00C#10, .nothing⟩
  | .wrDr v => ⟨writeDescriptor 0x00C#10, .value v⟩
  | .rdCsctrl => ⟨readDescriptor 0x010#10, .nothing⟩
  | .wrCsctrl v => ⟨writeDescriptor 0x010#10, .value v⟩
  | .rdInvalid off => ⟨readDescriptor off, .nothing⟩
  | .wrInvalid off v => ⟨writeDescriptor off, .value v⟩
  | .reset => ⟨hostDescriptor 0x000#10, .nothing⟩
  | .save => ⟨hostDescriptor 0x001#10, .nothing⟩
  | .restore r => ⟨hostDescriptor 0x002#10, .snapshot r⟩

/-! ### The Register File's dispatcher (R100) -/

/-- `BusRead(off)` (R100). -/
def busRead (off : Offset) : Instr :=
  if off = 0x000#10 then .rdCr1
  else if off = 0x004#10 then .rdCr2
  else if off = 0x008#10 then .rdSr
  else if off = 0x00C#10 then .rdDr
  else if off = 0x010#10 then .rdCsctrl
  else .rdInvalid off

/-- `BusWrite(off, val)` (R100). -/
def busWrite (off : Offset) (val : Word) : Instr :=
  if off = 0x000#10 then .wrCr1 val
  else if off = 0x004#10 then .wrCr2 val
  else if off = 0x008#10 then .wrSr val
  else if off = 0x00C#10 then .wrDr val
  else if off = 0x010#10 then .wrCsctrl val
  else .wrInvalid off val

/-! ### Words numbered as spec/opcode_table.json numbers them -/

/-- The operand of zeros that the row of a descriptor takes. -/
def zeroOperand (d : Descriptor) : Operand :=
  match selectOp d with
  | some .wrCr1 | some .wrCr2 | some .wrSr | some .wrDr | some .wrCsctrl | some .wrInvalid => .value 0#32
  | some .restore => .snapshot ⟨0#32, 0#32, 0#32, 0#32, 0#32⟩
  | some .rdCr1 | some .rdCr2 | some .rdSr | some .rdDr | some .rdCsctrl | some .rdInvalid
  | some .reset | some .save | none => .nothing

/-- The request whose first `nbits` bits are `w` and whose other bits are 0. A descriptor has 14 bits (R91): bits 13:0
of `w` are the descriptor, there is no bit 14 or 15, and the operand is zero. -/
def tableRequest (nbits w : Nat) : Request :=
  let d : Descriptor := BitVec.ofNat 14 (w % 2 ^ nbits)
  ⟨d, zeroOperand d⟩

/-- What the decoder reads from an instruction whose bits are `w`. -/
def decodeTableWord (nbits w : Nat) : Option Instr :=
  match decode (tableRequest nbits w) with
  | .ok i => some i
  | .error _ => none

end Sys2Proof
end

