-- ==== Sys2Proof/Machine/Flags.lean ====
section
/-! DEFINITION. The register fields of rule R18, every computation of an SR flag, and the two output functions
IRQ_FN (R202) and the levels of CS_EVAL (R160). -/

namespace Sys2Proof.Machine

/-! ### Single bits (R8, R9) -/

/-- `v[i]`. -/
def bit (v : Word) (i : Nat) : Bool := v.getLsbD i

/-- `REG.F <- 1` for a field of one bit: every other bit is unchanged (R9). -/
def setBit (v : Word) (i : Nat) : Word := v ||| (1#32 <<< i)

/-- `REG.F <- 0` for a field of one bit: every other bit is unchanged (R9). -/
def clearBit (v : Word) (i : Nat) : Word := v &&& ~~~(1#32 <<< i)

/-! ### Field names (R18) -/

/-- CR1.ENABLE; no rule reads it (R24). -/
def cr1Enable (cr1 : Word) : Bool := bit cr1 6

/-- CR1.MASTER; no rule reads it (R24). -/
def cr1Master (cr1 : Word) : Bool := bit cr1 2

/-- CR2.TXEIE. -/
def cr2Txeie (cr2 : Word) : Bool := bit cr2 7

/-- CR2.RXNEIE. -/
def cr2Rxneie (cr2 : Word) : Bool := bit cr2 6

/-- CR2.ERRIE. -/
def cr2Errie (cr2 : Word) : Bool := bit cr2 5

/-- CR2.SSOE; no rule reads it (R26). -/
def cr2Ssoe (cr2 : Word) : Bool := bit cr2 4

/-- SR.BSY, a dead bit (R29). -/
def srBsy (sr : Word) : Bool := bit sr 7

/-- SR.OVERRUN. -/
def srOverrun (sr : Word) : Bool := bit sr 3

/-- SR.UNDERRUN. -/
def srUnderrun (sr : Word) : Bool := bit sr 2

/-- SR.TXE. -/
def srTxe (sr : Word) : Bool := bit sr 1

/-- SR.RXNE. -/
def srRxne (sr : Word) : Bool := bit sr 0

/-- CSCTRL.EN[i]. -/
def csEn (csctrl : Word) (i : Nat) : Bool := bit csctrl i

/-- CSCTRL.REQ[i]. -/
def csReq (csctrl : Word) (i : Nat) : Bool := bit csctrl (i + 4)

/-! ### What the operations do to SR -/

/-- `WR SR, val`: write-one-to-clear on bits 3 and 2 (R106). -/
def srAfterWrite (sr val : Word) : Word := sr &&& ~~~(val &&& 0x0000000C#32)

/-- `RD DR`: UNDERRUN <- 1 when RXNE is 0, otherwise RXNE <- 0 (R107). -/
def srAfterDataRead (sr : Word) : Word :=
  if srRxne sr then clearBit sr 0 else setBit sr 2

/-- The overrun branch of a transfer: OVERRUN <- 1 (R142). -/
def srAfterOverrun (sr : Word) : Word := setBit sr 3

/-- The exchange branch of a transfer: RXNE <- 1 and TXE <- 1 (R143). -/
def srAfterExchange (sr : Word) : Word := setBit (setBit sr 0) 1

/-! ### The two output functions -/

/-- IRQ_FN(CR2, SR) (R202). -/
def irqFn (cr2 sr : Word) : Bool :=
  (cr2Txeie cr2 && srTxe sr)
    || (cr2Rxneie cr2 && srRxne sr)
    || (cr2Errie cr2 && (srOverrun sr || srUnderrun sr))

/-- The four levels of CS_EVAL as a vector: `~(CSCTRL[3:0] & CSCTRL[7:4]) & 0xF` (R160, R161). -/
def csFn (csctrl : Word) : BitVec 4 := ~~~(csctrl.extractLsb' 0 4 &&& csctrl.extractLsb' 4 4)

end Sys2Proof.Machine
end

