-- ==== Sys2Proof/Config.lean ====
section
/-! DEFINITION. The OPEN parameters of rule R7. Four are constants without a body: no proof can learn a value of one.
`SNAPSHOT_ENCODING` is an argument that the operations of Machine/Persistence.lean take. -/

namespace Sys2Proof

/-- `SNAPSHOT_ENCODING` (R183, D13; log entry 21): how the platform writes a snapshot as bytes, any version field among
them, and what it does with bytes it cannot read. -/
structure SnapshotEncoding where
  /-- The bytes of a snapshot. -/
  bytesOf : Regs → List Byte
  /-- The five values that bytes stand for; `none` where the platform cannot read them. -/
  regsOf : List Byte → Option Regs
  /-- What the platform issues to the block when it cannot read the bytes. -/
  unreadable : List Byte → List Request

/-- What is written is read back as the same five values: "all five registers compare equal" (R182). -/
def SnapshotEncoding.Lossless (enc : SnapshotEncoding) : Prop := ∀ r, enc.regsOf (enc.bytesOf r) = some r

/-- One change of the four select levels as a peer sees it: the new levels, and how many exchanges came before. -/
structure SelectChange where
  exchangesBefore : Nat
  levels : BitVec 4
deriving DecidableEq, Repr

end Sys2Proof

namespace Sys2Proof.Config

/-- `Peer` (R14, R144): the byte a serial peer answers where the state scripts no answer. A free value: it may depend
on which instance the peer hangs on and on all it sees of the block, which is the outbound bytes so far, every change of
the select levels so far with its place among the exchanges, the levels now and the byte being sent (R14, R187), and on
nothing a proof can see. Log entry 6. -/
opaque peerByte (instanceId draws : Nat) (sent : List Byte) (selects : List SelectChange) (csLevel : BitVec 4)
  (bOut : Byte) : Byte

/-- `SPI_BASE` (R60, R214): the base address of the window of instance `k`. No source gives it (D5). -/
opaque spiBase (k : Nat) : Nat

/-- `BUS_BYTE_ORDER` (R65): byte lane `i` of a 4-byte access carries the byte of significance `busLane i` of the
32-bit value (significance 0 is bits 7:0). Any one-to-one assignment; no source names one (D4). -/
opaque busLane : Equiv.Perm (Fin 4)

/-- `N_INSTANCES` (R214): how many independent instances the platform holds (D20). -/
opaque numInstances : Nat

end Sys2Proof.Config
end

