-- ==== Sys2Proof/Machine/State.lean ====
section
/-! DEFINITION. The state of the machine as plain data: the five registers of the block, the levels its sinks hold,
what its operations gave back and recorded, and the inputs that wait outside it. -/

namespace Sys2Proof.Machine

/-- The kind of an access in a diagnostic (R10, R213). -/
inductive AccessKind where
  | read
  | write
deriving DecidableEq, Repr

/-- What an operation records (R10, R12). -/
inductive Event where
  /-- `Exchange(b_out, b_in)`: one byte exchange with the serial peer. -/
  | exchange (bOut bIn : Byte)
  /-- `Diag(off, kind)`: one diagnostic to the host's sink. -/
  | diag (off : Offset) (kind : AccessKind)
deriving DecidableEq, Repr

/-- What an operation gives back: a read gives a 32-bit value, SAVE a snapshot (R12, R80). -/
inductive Result where
  | word (val : Word)
  | snapshot (snap : Regs)
deriving DecidableEq, Repr

/-- The whole machine. Only `regs` is state of the block (R20); the rest is what its outputs, its operations and its
inputs are outside it (log entries 1, 4, 5, 6, 7). -/
structure State where
  /-- The five registers (R20). -/
  regs : Regs
  /-- The level the interrupt sink last received, true = 1 = asserted (R37, R203, R206). -/
  irq : Bool
  /-- The levels the four select-line sinks last received: bit i is `cs_level[i]`, 0 = asserted (R38, R160, R161). -/
  csLevel : BitVec 4
  /-- What the latest operation gave back; `none` after one that gives nothing back (R12). -/
  result : Option Result
  /-- The events recorded so far, oldest first (R12). -/
  events : List Event
  /-- The operations issued and not yet taken, the next one first (R12, R15, R69). -/
  pending : List Request
  /-- What the peer answers to the coming exchanges, as far as it is said (R14, R92); after these `Config.peerByte`. -/
  peerScript : List Byte
  /-- How many exchanges there have been: the index of the next draw of `Config.peerByte` (log entry 7). -/
  peerDraws : Nat
  /-- Every change of the select levels so far, oldest first, as the peer saw it (R14; log entry 6). -/
  selectLog : List SelectChange
  /-- Which of the platform's instances this is (R214; log entry 7). -/
  instanceId : Nat
deriving DecidableEq, Repr

/-- The block raises no exception, no trap and no bus error, and every admitted operation completes (R113, R200): a
step never ends in a fault, and this type has no constructor (safe: there is nothing to raise). -/
inductive Fault where
deriving DecidableEq, Repr

/-- Why the model gives a request no meaning (R16). -/
inductive Refusal where
  /-- Raised by an arm of `exec` for an instruction without a meaning; none is left. Safe: nothing can be proved of it. -/
  | notModelled (mnemonic : String)
  /-- Raised by `step` for a request the decoder rejects (R88). Safe: "a refusal errs toward unprovable" (R16). -/
  | undecodable (why : Reject)
deriving DecidableEq, Repr

/-- The register values of reset (R41). -/
def resetRegs : Regs where
  cr1 := 0x00000000#32
  cr2 := 0x00000000#32
  sr := 0x00000002#32
  dr := 0x0000000C#32
  csctrl := 0x00000000#32

/-- The machine right after reset (R41, R241, R242): the block at its reset values, the outputs de-asserted, nothing
given back, recorded or waiting (log entries 2, 5, 6, 7). -/
def State.reset : State where
  regs := resetRegs
  irq := false
  csLevel := 0xF#4
  result := none
  events := []
  pending := []
  peerScript := []
  peerDraws := 0
  selectLog := []
  instanceId := 0

/-- An instance as its owner creates it, "with all registers zero" and not yet reset (R184). No rule gives the output
levels there, so they are arguments (91_not_in_source.md N18). -/
def State.created (irq : Bool) (csLevel : BitVec 4) : State :=
  { State.reset with regs := ⟨0#32, 0#32, 0#32, 0#32, 0#32⟩, irq := irq, csLevel := csLevel }

end Sys2Proof.Machine
end

