-- ==== Sys2Proof/Machine/Operands.lean ====
section
/-! DEFINITION. The operand forms: the outbound byte of a DR write (R140), the inbound byte as DR holds it (R143), the
value of a 4-byte access as bus lanes (R65), and the bytes sent so far. -/

namespace Sys2Proof.Machine

/-- `b_out = val[7:0]` (R140; the spec's decision D6, log entry 10). -/
def outboundByte (val : Word) : Byte := val.extractLsb' 0 8

/-- `zext_32(b_in)` (R9, R143; the spec's decision D7, log entry 11). -/
def inboundWord (bIn : Byte) : Word := bIn.setWidth 32

/-- The byte of significance `k` of a value: bits 8k+7 : 8k. -/
def byteAt (v : Word) (k : Fin 4) : Byte := v.extractLsb' (8 * k.val) 8

/-- A value laid out on the four byte lanes by `BUS_BYTE_ORDER` (R65). -/
def lanesOfWord (v : Word) : Vector Byte 4 := Vector.ofFn fun lane => byteAt v (Config.busLane lane)

/-- The value that four byte lanes carry by `BUS_BYTE_ORDER` (R65). -/
def wordOfLanes (lanes : Vector Byte 4) : Word :=
  (lanes[Config.busLane.symm 3].setWidth 32 <<< 24) ||| (lanes[Config.busLane.symm 2].setWidth 32 <<< 16) |||
    (lanes[Config.busLane.symm 1].setWidth 32 <<< 8) ||| lanes[Config.busLane.symm 0].setWidth 32

/-- The outbound bytes of the exchanges among some events, oldest first. -/
def sentBytes : List Event → List Byte
  | [] => []
  | .exchange bOut _ :: es => bOut :: sentBytes es
  | .diag _ _ :: es => sentBytes es

end Sys2Proof.Machine
end

