-- ==== Sys2Proof/Machine/Ops.lean ====
section
/-! DEFINITION. The named operations that the meanings are made of: the pseudocode primitives of rule R10 and the
Transfer Engine's algorithm (R141). The block takes no trap (R200, R209), so there is no exception entry here. -/

namespace Sys2Proof.Machine

/-- IRQ_EVAL(): recompute the interrupt level and drive the sink (R203). -/
def irqEval (s : State) : State := { s with irq := irqFn s.regs.cr2 s.regs.sr }

/-- What the peer has seen of the select lines once they are driven to `levels`: one more change, or none where they
stay as they were (R14, R167; log entry 6). -/
def selectSeen (s : State) (levels : BitVec 4) : List SelectChange :=
  if levels = s.csLevel then s.selectLog else s.selectLog ++ [⟨s.peerDraws, levels⟩]

/-- CS_EVAL(): recompute the four select levels and drive their sinks (R160), where the peer sees a change. -/
def csEval (s : State) : State :=
  { s with csLevel := csFn s.regs.csctrl, selectLog := selectSeen s (csFn s.regs.csctrl) }

/-- `return v`: the value a read gives back to the bus master (R10). -/
def returnWord (v : Word) (s : State) : State := { s with result := some (.word v) }

/-- SAVE's result (R180). -/
def returnSnapshot (snap : Regs) (s : State) : State := { s with result := some (.snapshot snap) }

/-- The end of an operation that gives nothing back (R12). -/
def returnNothing (s : State) : State := { s with result := none }

/-- Record one event (R12). -/
def recordEvent (e : Event) (s : State) : State := { s with events := s.events ++ [e] }

/-- `Diag(off, kind)` (R10, R213). -/
def diag (off : Offset) (kind : AccessKind) (s : State) : State := recordEvent (.diag off kind) s

/-- The peer's answer to `bOut`: the next scripted byte, and where none is scripted the free value of R14 (log entry 6). -/
def peerAnswer (s : State) (bOut : Byte) : Byte :=
  match s.peerScript with
  | bIn :: _ => bIn
  | [] => Config.peerByte s.instanceId s.peerDraws (sentBytes s.events) s.selectLog s.csLevel bOut

/-- What an exchange leaves outside the block: the event recorded, the script and the draw index moved on by one. -/
def exchanged (bOut : Byte) (s : State) : State :=
  recordEvent (.exchange bOut (peerAnswer s bOut))
    { s with peerScript := s.peerScript.tail, peerDraws := s.peerDraws + 1 }

/-- The overrun branch of TRANSFER: no exchange; DR, TXE and RXNE unchanged (R142). -/
def transferOverrun (s : State) : State :=
  irqEval { s with regs := { s.regs with sr := srAfterOverrun s.regs.sr } }

/-- The exchange branch of TRANSFER (R143). -/
def transferExchange (bOut : Byte) (s : State) : State :=
  irqEval { exchanged bOut s with
    regs := { s.regs with dr := inboundWord (peerAnswer s bOut), sr := srAfterExchange s.regs.sr } }

/-- TRANSFER(b_out): the Transfer Engine's algorithm (R141); SR.RXNE alone decides (R145). -/
def transfer (bOut : Byte) (s : State) : State :=
  if srRxne s.regs.sr then transferOverrun s else transferExchange bOut s

/-- Load all five registers and re-derive both outputs (R181, R240). -/
def loadRegs (r : Regs) (s : State) : State := irqEval (csEval { s with regs := r })

/-- The next request, and the state with it taken from the queue (R12, R69); `none` where nothing is waiting. -/
def fetch (s : State) : Option (Request × State) :=
  match s.pending with
  | [] => none
  | r :: rest => some (r, { s with pending := rest })

/-- A request put where `fetch` finds it next. -/
def pushRequest (r : Request) (s : State) : State := { s with pending := r :: s.pending }

/-- What is observed of a step: its result with the events recorded, and the five output levels (R13). -/
structure Observation where
  result : Option Result
  events : List Event
  irq : Bool
  csLevel : BitVec 4
deriving DecidableEq, Repr

/-- The observation of the step that led from `before` to `after` (R13). -/
def observe (before after : State) : Observation where
  result := after.result
  events := after.events.drop before.events.length
  irq := after.irq
  csLevel := after.csLevel

end Sys2Proof.Machine
end

