-- ==== Sys2Proof/Machine/ChipSelect.lean ====
section
/-! DEFINITION. The operations on CSCTRL (40_register_file.md section 6, 42_chip_select.md). -/

namespace Sys2Proof.Machine

/-- RD_CSCTRL: the register, not the line levels (R109). -/
def execRdCsctrl (s : State) : Host.Outcome State Fault Refusal :=
  .next (returnWord s.regs.csctrl s)

/-- WR_CSCTRL: all 32 bits are stored (D9, log entry 12), then CS_EVAL (R110). -/
def execWrCsctrl (val : Word) (s : State) : Host.Outcome State Fault Refusal :=
  .next (returnNothing (csEval { s with regs := { s.regs with csctrl := val } }))

end Sys2Proof.Machine
end

