-- ==== Sys2Proof/Machine/HostOps.lean ====
section
/-! DEFINITION. The host operations RESET (70_reset_and_hazards.md), SAVE and RESTORE (43_host_operations.md). -/

namespace Sys2Proof.Machine

/-- RESET: the values of R41, then CS_EVAL and IRQ_EVAL (R240). It reaches neither the peer nor the sinks' records,
nor what is waiting (R243). -/
def execReset (s : State) : Host.Outcome State Fault Refusal :=
  .next (returnNothing (loadRegs resetRegs s))

/-- SAVE: the five registers, with no DR-read side effect (R180). -/
def execSave (s : State) : Host.Outcome State Fault Refusal :=
  .next (returnSnapshot s.regs s)

/-- RESTORE: every value is accepted (D12, log entry 15), then CS_EVAL and IRQ_EVAL (R181). -/
def execRestore (snap : Regs) (s : State) : Host.Outcome State Fault Refusal :=
  .next (returnNothing (loadRegs snap s))

end Sys2Proof.Machine
end

