-- ==== Sys2Proof/Machine/RegisterFile.lean ====
section
/-! DEFINITION. The Register File's operations on CR1, CR2 and SR, the DR read, and the invalid accesses
(40_register_file.md). -/

namespace Sys2Proof.Machine

/-- RD_CR1 (R101). -/
def execRdCr1 (s : State) : Host.Outcome State Fault Refusal :=
  .next (returnWord s.regs.cr1 s)

/-- WR_CR1: all 32 bits are stored and nothing else happens (R102, R24). -/
def execWrCr1 (val : Word) (s : State) : Host.Outcome State Fault Refusal :=
  .next (returnNothing { s with regs := { s.regs with cr1 := val } })

/-- RD_CR2 (R103). -/
def execRdCr2 (s : State) : Host.Outcome State Fault Refusal :=
  .next (returnWord s.regs.cr2 s)

/-- WR_CR2: all 32 bits are stored (D9, log entry 12), then IRQ_EVAL (R104). -/
def execWrCr2 (val : Word) (s : State) : Host.Outcome State Fault Refusal :=
  .next (returnNothing (irqEval { s with regs := { s.regs with cr2 := val } }))

/-- RD_SR: plain, it clears no flag (R105). -/
def execRdSr (s : State) : Host.Outcome State Fault Refusal :=
  .next (returnWord s.regs.sr s)

/-- WR_SR: write-one-to-clear of OVERRUN and UNDERRUN, then IRQ_EVAL (R106). -/
def execWrSr (val : Word) (s : State) : Host.Outcome State Fault Refusal :=
  .next (returnNothing (irqEval { s with regs := { s.regs with sr := srAfterWrite s.regs.sr val } }))

/-- RD_DR: RXNE or UNDERRUN, IRQ_EVAL, and DR as it stands (R107). -/
def execRdDr (s : State) : Host.Outcome State Fault Refusal :=
  .next (returnWord s.regs.dr
    (irqEval { s with regs := { s.regs with sr := srAfterDataRead s.regs.sr } }))

/-- RD_INVALID: one diagnostic, 0 given back, no register touched (R111). -/
def execRdInvalid (off : Offset) (s : State) : Host.Outcome State Fault Refusal :=
  .next (returnWord 0x00000000#32 (diag off .read s))

/-- WR_INVALID: one diagnostic; the value is discarded (R112). -/
def execWrInvalid (off : Offset) (_val : Word) (s : State) : Host.Outcome State Fault Refusal :=
  .next (returnNothing (diag off .write s))

end Sys2Proof.Machine
end

