-- ==== Sys2Proof/Machine/TransferEngine.lean ====
section
/-! DEFINITION. The DR write, the one operation that invokes the Transfer Engine (41_transfer_engine.md). -/

namespace Sys2Proof.Machine

/-- WR_DR: `TRANSFER(val[7:0])`; the written value itself is not stored in DR (R108, R140). -/
def execWrDr (val : Word) (s : State) : Host.Outcome State Fault Refusal :=
  .next (returnNothing (transfer (outboundByte val) s))

end Sys2Proof.Machine
end

