-- ==== Sys2Proof/Machine/Dispatch.lean ====
section
/-! DEFINITION. One arm per operation of the map (R87). -/

namespace Sys2Proof.Machine

def exec (i : Instr) (s : State) : Host.Outcome State Fault Refusal :=
  match i with
  | .rdCr1 => Sys2Proof.Machine.execRdCr1 s
  | .wrCr1 val => Sys2Proof.Machine.execWrCr1 val s
  | .rdCr2 => Sys2Proof.Machine.execRdCr2 s
  | .wrCr2 val => Sys2Proof.Machine.execWrCr2 val s
  | .rdSr => Sys2Proof.Machine.execRdSr s
  | .wrSr val => Sys2Proof.Machine.execWrSr val s
  | .rdDr => Sys2Proof.Machine.execRdDr s
  | .wrDr val => Sys2Proof.Machine.execWrDr val s
  | .rdCsctrl => Sys2Proof.Machine.execRdCsctrl s
  | .wrCsctrl val => Sys2Proof.Machine.execWrCsctrl val s
  | .rdInvalid off => Sys2Proof.Machine.execRdInvalid off s
  | .wrInvalid off val => Sys2Proof.Machine.execWrInvalid off val s
  | .reset => Sys2Proof.Machine.execReset s
  | .save => Sys2Proof.Machine.execSave s
  | .restore snap => Sys2Proof.Machine.execRestore snap s

end Sys2Proof.Machine
end

