-- ==== Sys2Proof/Machine/Step.lean ====
section
/-! DEFINITION. One step: "one operation applied to the state" (R12). -/

namespace Sys2Proof.Machine

/-- Take the next operation, decode it and run it. With none waiting nothing advances (R22) and a run has ended
without a fault (R15); a request the decoder rejects is refused (R16, R88). -/
def step (s : State) : Host.Outcome State Fault Refusal :=
  match fetch s with
  | none => .next s
  | some (r, t) =>
    match decode r with
    | .ok i => exec i t
    | .error why => .refused (.undecodable why)

/-- `s` with the operation of a table word issued next, before whatever waits already (log entry 2). -/
def State.withFetchWord (s : State) (nbits w : Nat) : State := pushRequest (tableRequest nbits w) s

end Sys2Proof.Machine
end

