-- ==== Sys2Proof/Machine/Assembler.lean ====
section
/-! DEFINITION. The assembler statements of rule R92 and the pseudo-instructions of rule R93, as abstract syntax that
expands to operations of the map. The text layout is notation only (D18). -/

namespace Sys2Proof.Machine

/-- Register names, with the alias CSR of CSCTRL (R92; 90_conflicts.md C2). -/
inductive RegName where
  | cr1
  | cr2
  | sr
  | dr
  | csctrl
  | csr
deriving DecidableEq, Repr

/-- The window offset a name stands for (R61). -/
def regOffset : RegName → Offset
  | .cr1 => 0x000#10
  | .cr2 => 0x004#10
  | .sr => 0x008#10
  | .dr => 0x00C#10
  | .csctrl => 0x010#10
  | .csr => 0x010#10

/-- What an access names: `<reg>` or `@<off>` (R92). -/
inductive Target where
  | reg (name : RegName)
  | offset (off : Offset)
deriving DecidableEq, Repr

/-- The window offset of a target. -/
def targetOffset : Target → Offset
  | .reg name => regOffset name
  | .offset off => off

/-- A line of a program: an operation (R92) or a pseudo-instruction (R93). -/
inductive Stmt where
  | rd (t : Target)
  | wr (t : Target) (val : Word)
  | reset
  | save
  | restore (snap : Regs)
  /-- `CLRERR` -/
  | clrerr
  /-- `CLROVR` -/
  | clrovr
  /-- `CLRUDR` -/
  | clrudr
  /-- `XFER <b>` -/
  | xfer (b : Word)
  /-- `CSSEL <m>`, for a 4-bit mask m -/
  | cssel (m : BitVec 4)
  /-- `CSOFF` -/
  | csoff
  /-- `NOP` -/
  | nop
deriving DecidableEq, Repr

/-- The operations a line stands for, in order (R92, R93). -/
def expand : Stmt → List Instr
  | .rd t => [busRead (targetOffset t)]
  | .wr t val => [busWrite (targetOffset t) val]
  | .reset => [.reset]
  | .save => [.save]
  | .restore snap => [.restore snap]
  | .clrerr => [.wrSr 0x0000000C#32]
  | .clrovr => [.wrSr 0x00000008#32]
  | .clrudr => [.wrSr 0x00000004#32]
  | .xfer b => [.wrDr b, .rdDr]
  | .cssel m => [.wrCsctrl ((m.setWidth 32 <<< 4) ||| m.setWidth 32)]
  | .csoff => [.wrCsctrl 0x00000000#32]
  | .nop => [.rdSr]

/-- The requests a program stands for, in order. -/
def assembleProgram : List Stmt → List Request
  | [] => []
  | l :: ls => (expand l).map encode ++ assembleProgram ls

/-- Operations applied one after the other (R15). -/
def execAll : List Instr → State → Host.Outcome State Fault Refusal
  | [], s => .next s
  | i :: is, s =>
    match exec i s with
    | .next t => execAll is t
    | .fault r => .fault r
    | .refused r => .refused r

end Sys2Proof.Machine
end

