-- ==== Sys2Proof/Machine/Bus.lean ====
section
/-! DEFINITION. The bus master's side of the window (20_memory.md): how an access at an address becomes a request, and
how the value given back looks on the byte lanes. `SPI_BASE` and `BUS_BYTE_ORDER` are the parameters of Config. -/

namespace Sys2Proof.Machine

/-- Access widths the descriptor can name (R80 `sz`). -/
inductive AccessWidth where
  | bytes1
  | bytes2
  | bytes4
  | bytes8
deriving DecidableEq, Repr

/-- log2 of the width in bytes (R80). -/
def widthSz : AccessWidth → BitVec 2
  | .bytes1 => 0#2
  | .bytes2 => 1#2
  | .bytes4 => 2#2
  | .bytes8 => 3#2

/-- What the bus master wants of an access. A write brings its four byte lanes; of a write that is not 4 bytes wide
they mean nothing, since it is refused (R64). -/
inductive BusKind where
  | read
  | fetch
  | write (lanes : Vector Byte 4)
deriving DecidableEq, Repr

/-- One access on the bus, with the attributes a platform may attach to it (R211). -/
structure BusAccess where
  kind : BusKind
  addr : Nat
  width : AccessWidth
  privileged : Bool
  secure : Bool
deriving DecidableEq, Repr

/-- The window offset of an address for instance `k`; `none` outside the window, where the access does not reach the
block (R60, R63). -/
def windowOffset (k addr : Nat) : Option Offset :=
  if Config.spiBase k ≤ addr ∧ addr < Config.spiBase k + windowSize then
    some (BitVec.ofNat 10 (addr - Config.spiBase k))
  else none

/-- The request of an access at a window offset. A fetch is a read (R72); the attributes are not looked at (R211). -/
def requestAt (off : Offset) (a : BusAccess) : Request :=
  match a.kind with
  | .read => ⟨mkDescriptor (widthSz a.width) 0#2 off, .nothing⟩
  | .fetch => ⟨mkDescriptor (widthSz a.width) 0#2 off, .nothing⟩
  | .write lanes => ⟨mkDescriptor (widthSz a.width) 1#2 off, .value (wordOfLanes lanes)⟩

/-- The request of an access, where it reaches instance `k`. -/
def busRequest (k : Nat) (a : BusAccess) : Option Request :=
  match windowOffset k a.addr with
  | none => none
  | some off => some (requestAt off a)

/-- The bus master issues an access: it waits behind what was issued before it (R69). An access outside the window
changes nothing here (R63). -/
def busIssue (a : BusAccess) (s : State) : State :=
  match busRequest s.instanceId a with
  | none => s
  | some r => { s with pending := s.pending ++ [r] }

/-- `MemRead(SPI_BASE + off, 4)` (R10). -/
def memRead (k : Nat) (off : Offset) : BusAccess where
  kind := .read
  addr := Config.spiBase k + off.toNat
  width := .bytes4
  privileged := false
  secure := false

/-- `MemWrite(SPI_BASE + off, 4, v)` (R10). -/
def memWrite (k : Nat) (off : Offset) (v : Word) : BusAccess where
  kind := .write (lanesOfWord v)
  addr := Config.spiBase k + off.toNat
  width := .bytes4
  privileged := false
  secure := false

/-- The byte lanes of the value the latest read gave back; `none` where the latest operation was no bus read. -/
def busData (s : State) : Option (Vector Byte 4) :=
  match s.result with
  | some (.word v) => some (lanesOfWord v)
  | some (.snapshot _) => none
  | none => none

end Sys2Proof.Machine
end

