-- ==== Sys2Proof/Machine/Persistence.lean ====
section
/-! DEFINITION. The platform's side of SAVE and RESTORE: a snapshot as bytes, by the parameter `SNAPSHOT_ENCODING`
(R183), which every definition here takes as an argument. The block itself knows five values only. -/

namespace Sys2Proof.Machine

/-- The bytes the platform keeps after a SAVE; `none` where the latest operation gave back no snapshot. -/
def savedBytes (enc : SnapshotEncoding) (s : State) : Option (List Byte) :=
  match s.result with
  | some (.snapshot snap) => some (enc.bytesOf snap)
  | some (.word _) => none
  | none => none

/-- What the platform issues when it is handed saved bytes: the RESTORE of the five values they stand for, which
re-derives both outputs before operation resumes (R181, R186); where it cannot read them, what the encoding says. -/
def restoreRequests (enc : SnapshotEncoding) (bytes : List Byte) : List Request :=
  match enc.regsOf bytes with
  | some snap => [encode (.restore snap)]
  | none => enc.unreadable bytes

/-- The platform restores from saved bytes: what it issues waits behind what was issued before (R69, R185). -/
def restoreIssue (enc : SnapshotEncoding) (bytes : List Byte) (s : State) : State :=
  { s with pending := s.pending ++ restoreRequests enc bytes }

end Sys2Proof.Machine
end

