-- ==== Sys2Proof/Machine/Platform.lean ====
section
/-! DEFINITION. Several instances on one platform (R45, R214): each a machine of its own, sharing no state. -/

namespace Sys2Proof.Machine

/-- The instances of a platform, instance `k` at place `k`. -/
abbrev Platform := List State

/-- `N_INSTANCES` instances (R7, R214), each created and reset, each knowing its place. -/
def platformReset : Platform :=
  (List.range Config.numInstances).map fun k => { State.reset with instanceId := k }

/-- An operation acts on one instance: instance `k` makes a step and takes its new state; a place that holds no
instance makes none. -/
def stepInstance (k : Nat) (p : Platform) : Host.Outcome Platform Fault Refusal :=
  match p[k]? with
  | none => .next p
  | some s =>
    match step s with
    | .next t => .next (p.set k t)
    | .fault r => .fault r
    | .refused r => .refused r

end Sys2Proof.Machine
end

