-- ==== Sys2Proof/Safety.lean ====
section
/-! DEFINITION. What counts as a safe state and a safe run, in the terms the statements use. -/

namespace Sys2Proof.Machine

/-- Every output level is the function the rules derive it by (R37, R38, R203, R162). -/
def OutputsAgree (s : State) : Prop :=
  s.irq = irqFn s.regs.cr2 s.regs.sr ∧ s.csLevel = csFn s.regs.csctrl

/-- What R43 says of the registers of every state reached from RESET without a RESTORE: BSY and the reserved bits of SR
(bits 31:8, 7 and 6:4) are 0, TXE is 1, and DR[31:8] is 0. -/
structure NoRestoreRegs (r : Regs) : Prop where
  srHigh : ∀ i, 4 ≤ i → i < 32 → bit r.sr i = false
  txe : srTxe r.sr = true
  drHigh : ∀ i, 8 ≤ i → i < 32 → bit r.dr i = false

/-- The descriptor of RESTORE (R87). -/
def restoreDescriptor : Descriptor := 0x0802#14

/-- No RESTORE is waiting. -/
def NoRestoreWaiting (s : State) : Prop := ∀ r ∈ s.pending, r.desc ≠ restoreDescriptor

/-- Every waiting request stands for an operation. -/
def AllWaitingDecode (s : State) : Prop := ∀ r ∈ s.pending, ∃ i, decode r = .ok i

/-- A run from here ends, after at most `k` steps, in a state, not in a fault or a refusal (R113, R200). -/
def SafeFor (k : Nat) (s : State) : Prop := ∃ t, Sys2Proof.core.run k s = .next t

end Sys2Proof.Machine
end

