-- ==== Sys2Proof/Certificates/Slice0/Obligations.lean ====
section
/-! DEFINITION. The statements for the provers. Each docstring names the rules of spec/ it formalises, and says so where
it rests on a decision the spec marks as its own (D<n> of 92_eei_decisions.md) or on a log entry of this model. An
equation `exec i s = .next { s with … }` says at once that the operation completes, what it writes, and that it leaves
everything else alone. -/

open Sys2Proof Sys2Proof.Machine

/-! ### The Register File (40_register_file.md) -/

/-- R101, R105. The descriptors are the spec's own (D1). -/
def Obligations.ReadsOfCr1AndSrArePlain : Prop :=
  decode ⟨0x2000#14, .nothing⟩ = .ok .rdCr1 ∧ decode ⟨0x2008#14, .nothing⟩ = .ok .rdSr ∧
  (∀ s : State, exec .rdCr1 s = .next { s with result := some (.word s.regs.cr1) }) ∧
  (∀ s : State, exec .rdSr s = .next { s with result := some (.word s.regs.sr) }) ∧
  (∀ (s : State) (v : Word), ∃ t u, exec (.wrCr1 v) s = .next t ∧ exec .rdCr1 t = .next u ∧
    u.result = some (.word v)) ∧
  (∃ t, exec .rdSr State.reset = .next t ∧ t.result = some (.word 0x00000002#32))

/-- 40_register_file.md sections 3 and 6 (RD CR2, RD CSCTRL). That all 32 bits read back as written is the spec's own
decision D9 (log entry 12). -/
def Obligations.ReadsOfCr2AndCsctrlArePlain : Prop :=
  decode ⟨0x2004#14, .nothing⟩ = .ok .rdCr2 ∧ decode ⟨0x2010#14, .nothing⟩ = .ok .rdCsctrl ∧
  (∀ s : State, exec .rdCr2 s = .next { s with result := some (.word s.regs.cr2) }) ∧
  (∀ s : State, exec .rdCsctrl s = .next { s with result := some (.word s.regs.csctrl) }) ∧
  (∀ (s : State) (v : Word), ∃ t u, exec (.wrCr2 v) s = .next t ∧ exec .rdCr2 t = .next u ∧
    u.result = some (.word v)) ∧
  (∀ (s : State) (v : Word), ∃ t u, exec (.wrCsctrl v) s = .next t ∧ exec .rdCsctrl t = .next u ∧
    u.result = some (.word v))

/-- R102. The descriptor is the spec's own (D1). -/
def Obligations.WriteOfCr1StoresAndDoesNothingElse : Prop :=
  ∀ (s : State) (v : Word), decode ⟨0x2400#14, .value v⟩ = .ok (.wrCr1 v) ∧
    exec (.wrCr1 v) s = .next { s with regs := { s.regs with cr1 := v }, result := none }

/-- 40_register_file.md section 3 (WR CR2), with the interrupt function written out. That all 32 bits are stored is the
spec's own decision D9 (log entry 12). -/
def Obligations.WriteOfCr2StoresAndReevaluatesIrq : Prop :=
  ∀ (s : State) (v : Word), decode ⟨0x2404#14, .value v⟩ = .ok (.wrCr2 v) ∧
    exec (.wrCr2 v) s = .next { s with
      regs := { s.regs with cr2 := v },
      irq := (bit v 7 && bit s.regs.sr 1) || (bit v 6 && bit s.regs.sr 0) ||
        (bit v 5 && (bit s.regs.sr 3 || bit s.regs.sr 2)),
      result := none }

/-- R106, bit by bit: OVERRUN and UNDERRUN fall where the written bit is 1, every other bit of SR stays, and the
interrupt level is that of the new SR. The descriptor is the spec's own (D1). -/
def Obligations.WriteOfSrClearsByWritingOne : Prop :=
  ∀ (s : State) (v : Word), decode ⟨0x2408#14, .value v⟩ = .ok (.wrSr v) ∧
    ∃ sr', exec (.wrSr v) s = .next { s with
        regs := { s.regs with sr := sr' }, irq := irqFn s.regs.cr2 sr', result := none } ∧
      sr' = s.regs.sr &&& ~~~(v &&& 0x0000000C#32) ∧
      ∀ k, k < 32 →
        bit sr' k = if k = 3 ∨ k = 2 then (bit s.regs.sr k && !bit v k) else bit s.regs.sr k

/-- R107: on RXNE = 0 UNDERRUN rises, on RXNE = 1 RXNE falls, no other bit of SR changes, IRQ_EVAL runs, and DR is
given back unchanged; a second read gives the same value and records an underrun. The descriptor is the spec's (D1). -/
def Obligations.ReadOfDrClearsRxneOrSetsUnderrun : Prop :=
  decode ⟨0x200C#14, .nothing⟩ = .ok .rdDr ∧
  (∀ s : State, ∃ sr', exec .rdDr s = .next { s with
      regs := { s.regs with sr := sr' }, irq := irqFn s.regs.cr2 sr', result := some (.word s.regs.dr) } ∧
    (bit s.regs.sr 0 = false → ∀ k, k < 32 → bit sr' k = (bit s.regs.sr k || decide (k = 2))) ∧
    (bit s.regs.sr 0 = true → ∀ k, k < 32 → bit sr' k = (bit s.regs.sr k && !decide (k = 0)))) ∧
  (∀ s : State, bit s.regs.sr 0 = true → ∃ t u, exec .rdDr s = .next t ∧ exec .rdDr t = .next u ∧
    u.result = t.result ∧ bit t.regs.sr 0 = false ∧ bit t.regs.sr 2 = bit s.regs.sr 2 ∧ bit u.regs.sr 2 = true)

/-- 40_register_file.md section 7 (R111, R112): one diagnostic, 0 given back by a read, the written value discarded, no
register and no output touched. That every offset but the five is invalid is the spec's own decision D3 (log entry 9). -/
def Obligations.InvalidAccessesOnlyRecordADiagnostic : Prop :=
  ∀ (s : State) (off : Offset) (v : Word),
    (off ∉ [0x000#10, 0x004#10, 0x008#10, 0x00C#10, 0x010#10] →
      decode ⟨0x2000#14 ||| off.setWidth 14, .nothing⟩ = .ok (.rdInvalid off) ∧
      decode ⟨0x2400#14 ||| off.setWidth 14, .value v⟩ = .ok (.wrInvalid off v)) ∧
    exec (.rdInvalid off) s =
      .next { s with result := some (.word 0x00000000#32), events := s.events ++ [.diag off .read] } ∧
    exec (.wrInvalid off v) s =
      .next { s with result := none, events := s.events ++ [.diag off .write] }

/-- R100 with R83 and R86: the decoder's verdict on a 4-byte bus access is the dispatcher's choice, for every offset of
the window. The descriptor is the spec's own (D1). -/
def Obligations.DecoderAgreesWithTheDispatcher : Prop :=
  ∀ (off : Offset) (v : Word),
    decode ⟨mkDescriptor 2#2 0#2 off, .nothing⟩ = .ok (busRead off) ∧
    decode ⟨mkDescriptor 2#2 1#2 off, .value v⟩ = .ok (busWrite off v)

/-- R113, R200: every operation of the map completes, a bus read of any window offset gives back a 32-bit value, and no
step ever ends in a fault. -/
def Obligations.EveryOperationCompletes : Prop :=
  (∀ (i : Instr) (s : State), ∃ t, exec i s = .next t) ∧
  (∀ (off : Offset) (s : State), ∃ t v, exec (busRead off) s = .next t ∧ t.result = some (.word v)) ∧
  (∀ (off : Offset) (v : Word) (s : State), ∃ t, exec (busWrite off v) s = .next t) ∧
  (∀ (s : State) (f : Fault), step s ≠ .fault f)

/-! ### The Transfer Engine (41_transfer_engine.md) -/

/-- R142: with RXNE = 1 a DR write sets OVERRUN and does nothing else but re-evaluate the interrupt: no event, DR, TXE,
RXNE and every other bit of SR unchanged, the peer's script untouched. -/
def Obligations.WriteOfDrWhileFullIsAnOverrun : Prop :=
  ∀ (s : State) (v : Word), bit s.regs.sr 0 = true →
    ∃ sr', exec (.wrDr v) s = .next { s with
        regs := { s.regs with sr := sr' }, irq := irqFn s.regs.cr2 sr', result := none } ∧
      ∀ k, k < 32 → bit sr' k = (bit s.regs.sr k || decide (k = 3))

/-- 41_transfer_engine.md section 1: with RXNE = 0 a DR write exchanges one byte and DR becomes the peer's answer, RXNE
and TXE rise, nothing else of SR changes. That the outbound byte is bits 7:0 is the spec's own decision D6 (log entry
10); that DR[31:8] is 0 after it is D7 (log entry 11). The answer is the scripted one where there is a script, and
otherwise free (log entry 6). -/
def Obligations.WriteOfDrWhileEmptyExchangesOneByte : Prop :=
  ∀ (s : State) (v : Word), bit s.regs.sr 0 = false →
    decode ⟨0x240C#14, .value v⟩ = .ok (.wrDr v) ∧
    ∃ (bIn : Byte) (dr' sr' : Word),
      (∀ b rest, s.peerScript = b :: rest → bIn = b) ∧
      exec (.wrDr v) s = .next { s with
        regs := { s.regs with dr := dr', sr := sr' }, irq := irqFn s.regs.cr2 sr', result := none,
        events := s.events ++ [.exchange (v.extractLsb' 0 8) bIn],
        peerScript := s.peerScript.tail, peerDraws := s.peerDraws + 1 } ∧
      (∀ k, k < 32 → bit dr' k = if k < 8 then bIn.getLsbD k else false) ∧
      (∀ k, k < 32 → bit sr' k = (bit s.regs.sr k || decide (k = 0) || decide (k = 1)))

/-- 00_scope.md section 6, 41_transfer_engine.md section 1 (the open parameter `Peer`, D8): every one of the 256 answers
is admitted in every state with RXNE = 0, as some script of the peer (log entry 6). That the outbound byte is bits 7:0
is the spec's own decision D6 (log entry 10), that DR is the answer zero-extended is D7 (log entry 11). -/
def Obligations.EveryAnswerOfThePeerIsAdmitted : Prop :=
  ∀ (s : State) (v : Word) (b : Byte), srRxne s.regs.sr = false →
    ∃ script t, exec (.wrDr v) { s with peerScript := script } = .next t ∧
      t.regs.dr = b.setWidth 32 ∧ t.events = s.events ++ [.exchange (v.extractLsb' 0 8) b]

/-- R145 (which the spec derives): nothing gates a transfer but RXNE. Two states that agree on RXNE and in which the
peer gives the same answer exchange the same bytes and reach the same DR, RXNE and TXE, whatever CR1, CR2, CSCTRL, the
select levels and the other bits of SR hold. -/
def Obligations.NothingGatesATransferButRxne : Prop :=
  ∀ (s s' t t' : State) (v : Word) (b : Byte) (rest rest' : List Byte),
    srRxne s.regs.sr = false → srRxne s'.regs.sr = false →
    s.peerScript = b :: rest → s'.peerScript = b :: rest' →
    exec (.wrDr v) s = .next t → exec (.wrDr v) s' = .next t' →
    t.regs.dr = t'.regs.dr ∧ srRxne t.regs.sr = srRxne t'.regs.sr ∧ srTxe t.regs.sr = srTxe t'.regs.sr ∧
      t.events.drop s.events.length = t'.events.drop s'.events.length

/-- R148 as a run (section 2 of 41_transfer_engine.md): alternating DR writes and DR reads from an empty buffer moves
any number of bytes without loss: every byte goes out once and in order, and neither error flag changes. That bits 7:0
of each written value go out is the spec's own decision D6 (log entry 10). -/
def Obligations.AlternatingTransfersLoseNothing : Prop :=
  ∀ (bytes : List Word) (s : State), srRxne s.regs.sr = false →
    ∃ t, execAll (bytes.flatMap fun b => expand (.xfer b)) s = .next t ∧
      srRxne t.regs.sr = false ∧
      srOverrun t.regs.sr = srOverrun s.regs.sr ∧ srUnderrun t.regs.sr = srUnderrun s.regs.sr ∧
      sentBytes t.events = sentBytes s.events ++ bytes.map fun b => b.extractLsb' 0 8

/-! ### The status register, over all operations (10_state.md) -/

/-- R29, R34: no operation changes BSY or a reserved bit of SR (bits 31:4) but RESET, which loads 0, and RESTORE, which
loads any value. -/
def Obligations.BsyAndReservedSrBitsAreDead : Prop :=
  ∀ (i : Instr) (s : State) (k : Nat), 4 ≤ k → k < 32 → ∃ t, exec i s = .next t ∧
    bit t.regs.sr k = match i with
      | .reset => false
      | .restore snap => bit snap.sr k
      | _ => bit s.regs.sr k

/-- R31: RXNE after every operation. -/
def Obligations.RxneAfterEveryOperation : Prop :=
  ∀ (i : Instr) (s : State), ∃ t, exec i s = .next t ∧
    bit t.regs.sr 0 = match i with
      | .wrDr _ => true
      | .rdDr => false
      | .reset => false
      | .restore snap => bit snap.sr 0
      | _ => bit s.regs.sr 0

/-- R32, R33: OVERRUN and UNDERRUN after every operation. They rise only by a DR write with RXNE = 1 and a DR read with
RXNE = 0, fall only by a write of 1, RESET or RESTORE, and may both be 1 (a read and two writes of DR from reset). -/
def Obligations.ErrorFlagsAfterEveryOperation : Prop :=
  (∀ (i : Instr) (s : State), ∃ t, exec i s = .next t ∧
    (bit t.regs.sr 3 = match i with
      | .wrDr _ => bit s.regs.sr 3 || bit s.regs.sr 0
      | .wrSr v => bit s.regs.sr 3 && !bit v 3
      | .reset => false
      | .restore snap => bit snap.sr 3
      | _ => bit s.regs.sr 3) ∧
    (bit t.regs.sr 2 = match i with
      | .rdDr => bit s.regs.sr 2 || !bit s.regs.sr 0
      | .wrSr v => bit s.regs.sr 2 && !bit v 2
      | .reset => false
      | .restore snap => bit snap.sr 2
      | _ => bit s.regs.sr 2)) ∧
  (∀ v w : Word, ∃ t, execAll [.rdDr, .wrDr v, .wrDr w] State.reset = .next t ∧
    bit t.regs.sr 3 = true ∧ bit t.regs.sr 2 = true)

/-- R30 (which the spec derives): TXE after every operation; only a RESTORE that loads 0 clears it. -/
def Obligations.TxeAfterEveryOperation : Prop :=
  ∀ (i : Instr) (s : State), ∃ t, exec i s = .next t ∧
    (bit t.regs.sr 1 = match i with
      | .wrDr _ => bit s.regs.sr 1 || !bit s.regs.sr 0
      | .reset => true
      | .restore snap => bit snap.sr 1
      | _ => bit s.regs.sr 1)

/-- R42 (which the spec derives), the other four registers: who can change each. -/
def Obligations.OnlyTheNamedOperationsChangeARegister : Prop :=
  ∀ (i : Instr) (s : State), ∃ t, exec i s = .next t ∧
    (t.regs.cr1 ≠ s.regs.cr1 → (∃ v, i = .wrCr1 v) ∨ i = .reset ∨ ∃ r, i = .restore r) ∧
    (t.regs.cr2 ≠ s.regs.cr2 → (∃ v, i = .wrCr2 v) ∨ i = .reset ∨ ∃ r, i = .restore r) ∧
    (t.regs.dr ≠ s.regs.dr →
      ((∃ v, i = .wrDr v) ∧ srRxne s.regs.sr = false) ∨ i = .reset ∨ ∃ r, i = .restore r) ∧
    (t.regs.csctrl ≠ s.regs.csctrl → (∃ v, i = .wrCsctrl v) ∨ i = .reset ∨ ∃ r, i = .restore r)

/-- R249 (which the spec derives): writing back the value just read from SR clears both error flags and leaves every
other bit of SR alone. -/
def Obligations.WritingBackSrClearsTheErrors : Prop :=
  ∀ s : State, ∃ t u v, exec .rdSr s = .next t ∧ t.result = some (.word v) ∧ exec (.wrSr v) t = .next u ∧
    bit u.regs.sr 3 = false ∧ bit u.regs.sr 2 = false ∧
    ∀ k, k < 32 → k ≠ 3 → k ≠ 2 → bit u.regs.sr k = bit s.regs.sr k

/-- R208 (which the spec derives): within one operation at most one error condition arises, and each arises only from
its own operation. -/
def Obligations.AtMostOneErrorPerOperation : Prop :=
  ∀ (i : Instr) (s t : State), exec i s = .next t → (∀ r, i ≠ .restore r) →
    ((bit s.regs.sr 3 = false ∧ bit t.regs.sr 3 = true) →
      (∃ v, i = .wrDr v) ∧ bit t.regs.sr 2 = bit s.regs.sr 2 ∧ t.events = s.events) ∧
    ((bit s.regs.sr 2 = false ∧ bit t.regs.sr 2 = true) →
      i = .rdDr ∧ bit t.regs.sr 3 = bit s.regs.sr 3 ∧ t.events = s.events) ∧
    (∀ off kind, t.events = s.events ++ [.diag off kind] → t.regs = s.regs)

/-! ### The Interrupt Evaluator (60_exceptions.md) -/

/-- R202: IRQ_FN in bit form, and it reads no other bit of CR2 or SR. -/
def Obligations.IrqFunctionIsTheThreePairs : Prop :=
  (∀ cr2 sr : Word, irqFn cr2 sr =
    ((bit cr2 7 && bit sr 1) || (bit cr2 6 && bit sr 0) || (bit cr2 5 && (bit sr 3 || bit sr 2)))) ∧
  (∀ cr2 cr2' sr sr' : Word, (∀ k, 5 ≤ k → k ≤ 7 → bit cr2 k = bit cr2' k) →
    (∀ k, k ≤ 3 → bit sr k = bit sr' k) → irqFn cr2 sr = irqFn cr2' sr')

/-- 60_exceptions.md section 2 (R203; that RESET runs IRQ_EVAL is the spec's own decision D10, log entry 13): which
operations re-evaluate the interrupt level, and that every other one leaves it as it was. That RESTORE loads any value is
D12 (log entry 15). -/
def Obligations.WhenTheInterruptLevelMoves : Prop :=
  ∀ (i : Instr) (s : State), ∃ t, exec i s = .next t ∧
    t.irq = match i with
      | .wrCr2 v => irqFn v s.regs.sr
      | .wrSr _ => irqFn s.regs.cr2 t.regs.sr
      | .rdDr => irqFn s.regs.cr2 t.regs.sr
      | .wrDr _ => irqFn s.regs.cr2 t.regs.sr
      | .reset => false
      | .restore snap => irqFn snap.cr2 snap.sr
      | _ => s.irq

/-- R207 (which the spec derives): in a state of the kind reached without RESTORE, a WR_CR2 that sets TXEIE raises the
interrupt, and no other operation but RESET and RESTORE lowers it while TXEIE is set. -/
def Obligations.TxeieHoldsTheInterrupt : Prop :=
  ∀ s : State, OutputsAgree s → NoRestoreRegs s.regs →
    (∀ v, bit v 7 = true → ∃ t, exec (.wrCr2 v) s = .next t ∧ t.irq = true) ∧
    (cr2Txeie s.regs.cr2 = true → ∀ i, (∀ v, i ≠ .wrCr2 v) → i ≠ .reset → (∀ r, i ≠ .restore r) →
      ∃ t, exec i s = .next t ∧ t.irq = true ∧ cr2Txeie t.regs.cr2 = true)

/-- Every step keeps each output level equal to the function the rules derive it by (R13, R203, R162). -/
def Obligations.EveryStepKeepsTheOutputsDerived : Prop :=
  ∀ s t : State, OutputsAgree s → step s = .next t → OutputsAgree t

/-- The outputs agree right after reset (R241; the spec's own decision D10, log entry 13). -/
def Obligations.OutputsAreDerivedAtReset : Prop := OutputsAgree State.reset

/-! ### The Chip-Select Controller (42_chip_select.md) -/

/-- R160, R161, R163: level i is 0 exactly when bits i and i+4 of CSCTRL are both 1, in vector form too; CS_EVAL writes
nothing of the block but the levels and reads nothing above bit 7. What the peer has seen of the lines (`selectLog`)
stands outside the block and is the model's own (log entry 6). -/
def Obligations.SelectLevelsAreEnableAndRequestInverted : Prop :=
  (∀ (v : Word) (i : Nat), i < 4 → (csFn v).getLsbD i = !(bit v i && bit v (i + 4))) ∧
  (∀ v : Word, csFn v = ~~~(v.extractLsb' 0 4 &&& v.extractLsb' 4 4)) ∧
  (∀ s : State, csEval s =
    { s with csLevel := csFn s.regs.csctrl, selectLog := selectSeen s (csFn s.regs.csctrl) }) ∧
  (∀ v w : Word, (∀ k, k < 8 → bit v k = bit w k) → csFn v = csFn w)

/-- 42_chip_select.md (R162): CS_EVAL runs at the end of WR_CSCTRL, RESET and RESTORE; no other operation changes CSCTRL,
and under every other one each level keeps its value. That WR_CSCTRL stores all 32 bits is the spec's own decision D9
(log entry 12), that RESTORE loads any value is D12 (log entry 15). -/
def Obligations.WhenTheSelectLevelsMove : Prop :=
  ∀ (i : Instr) (s : State), ∃ t, exec i s = .next t ∧
    (t.csLevel = match i with
      | .wrCsctrl v => csFn v
      | .reset => csFn 0x00000000#32
      | .restore snap => csFn snap.csctrl
      | _ => s.csLevel) ∧
    (t.regs.csctrl = match i with
      | .wrCsctrl v => v
      | .reset => 0x00000000#32
      | .restore snap => snap.csctrl
      | _ => s.regs.csctrl)

/-- 40_register_file.md section 6 (WR CSCTRL), with the levels line by line. That all 32 bits are stored is the spec's
own decision D9 (log entry 12); what the peer has seen of the lines is the model's own (log entry 6). -/
def Obligations.WriteOfCsctrlDrivesTheLines : Prop :=
  ∀ (s : State) (v : Word), decode ⟨0x2410#14, .value v⟩ = .ok (.wrCsctrl v) ∧
    ∃ levels, exec (.wrCsctrl v) s = .next { s with
        regs := { s.regs with csctrl := v }, csLevel := levels, result := none,
        selectLog := selectSeen s levels } ∧
      ∀ i, i < 4 → levels.getLsbD i = !(bit v i && bit v (i + 4))

/-! ### Host operations and reset (43_host_operations.md, 70_reset_and_hazards.md) -/

/-- R41, R166: the reset values, from every state; two resets equal one. Nothing but the registers, the outputs and the
result is touched (the frame of the pseudocode of RESET), and what the peer has seen of the select lines, the model's
own (log entry 6). That the interrupt is re-evaluated is the spec's own
decision D10 (log entry 13); R41 itself says it is de-asserted. -/
def Obligations.ResetLeavesTheResetValues : Prop :=
  (∀ s : State, exec .reset s = .next { s with
    regs := { cr1 := 0x00000000#32, cr2 := 0x00000000#32, sr := 0x00000002#32, dr := 0x0000000C#32, csctrl := 0x00000000#32 },
    irq := false, csLevel := 0xF#4, result := none, selectLog := selectSeen s 0xF#4 }) ∧
  (∀ s t : State, exec .reset s = .next t → exec .reset t = .next t) ∧
  State.reset.regs = ⟨0x00000000#32, 0x00000000#32, 0x00000002#32, 0x0000000C#32, 0x00000000#32⟩ ∧
  State.reset.irq = false ∧ State.reset.csLevel = 0xF#4

/-- R184 and the start of a run (the spec's own decision D11, log entry 14): an instance created with all registers
zero and then reset stands at the reset state, whatever its output levels were; where they were not all de-asserted, the
peer has seen them change (log entry 6). -/
def Obligations.ResetOfACreatedInstanceIsTheResetState : Prop :=
  ∀ (irq : Bool) (levels : BitVec 4),
    exec .reset (State.created irq levels) = .next { State.reset with
      selectLog := if levels = 0xF#4 then [] else [⟨0, 0xF#4⟩] }

/-- R180: SAVE gives back the five registers in order and does nothing else; in particular it has no DR-read effect.
The descriptor is the spec's own (D1). -/
def Obligations.SaveGivesBackTheFiveRegisters : Prop :=
  decode ⟨0x0801#14, .nothing⟩ = .ok .save ∧
  (∀ s : State, exec .save s = .next { s with
    result := some (.snapshot ⟨s.regs.cr1, s.regs.cr2, s.regs.sr, s.regs.dr, s.regs.csctrl⟩) }) ∧
  (∃ t, exec .save State.reset = .next t ∧
    t.result = some (.snapshot ⟨0x00000000#32, 0x00000000#32, 0x00000002#32, 0x0000000C#32, 0x00000000#32⟩))

/-- 43_host_operations.md section 1 (RESTORE): the five values are loaded as they are and both outputs are re-derived.
That every value is accepted is the spec's own decision D12 (log entry 15); what the peer has seen of the lines is the
model's own (log entry 6). -/
def Obligations.RestoreLoadsAndRederives : Prop :=
  ∀ (s : State) (c1 c2 sr dr cs : Word),
    decode ⟨0x0802#14, .snapshot ⟨c1, c2, sr, dr, cs⟩⟩ = .ok (.restore ⟨c1, c2, sr, dr, cs⟩) ∧
    ∃ irq levels, exec (.restore ⟨c1, c2, sr, dr, cs⟩) s = .next { s with
        regs := { cr1 := c1, cr2 := c2, sr := sr, dr := dr, csctrl := cs },
        irq := irq, csLevel := levels, result := none, selectLog := selectSeen s levels } ∧
      irq = ((bit c2 7 && bit sr 1) || (bit c2 6 && bit sr 0) || (bit c2 5 && (bit sr 3 || bit sr 2))) ∧
      ∀ i, i < 4 → levels.getLsbD i = !(bit cs i && bit cs (i + 4))

/-- R182 (which the spec derives): a RESTORE, at any later point, of what a SAVE gave back yields the registers saved,
outputs that agree with them, and the very levels of the saved state where that state's outputs agreed. That RESTORE
loads every value is D12 (log entry 15). -/
def Obligations.RestoreOfASaveRoundTrips : Prop :=
  ∀ s : State, ∃ t snap, exec .save s = .next t ∧ t.result = some (.snapshot snap) ∧
    ∀ u : State, ∃ w, exec (.restore snap) u = .next w ∧ w.regs = s.regs ∧ OutputsAgree w ∧
      (OutputsAgree s → w.irq = s.irq ∧ w.csLevel = s.csLevel)

/-- R43 (which the spec derives) as an invariant of the step: while no RESTORE is waiting, BSY and the reserved SR bits
stay 0, TXE stays 1 and DR[31:8] stays 0. That DR[31:8] is 0 after a transfer is D7 (log entry 11). -/
def Obligations.WithoutRestoreTheRegistersStayClean : Prop :=
  ∀ s t : State, NoRestoreRegs s.regs → NoRestoreWaiting s → step s = .next t →
    NoRestoreRegs t.regs ∧ NoRestoreWaiting t

/-- The reset state is clean and no RESTORE waits in it (R41, R43). -/
def Obligations.ResetRegistersAreClean : Prop :=
  NoRestoreRegs State.reset.regs ∧ NoRestoreWaiting State.reset

/-! ### No hidden influence -/

/-- R24: no rule reads CR1. Whatever CR1 holds, every operation but RD_CR1 and SAVE completes with the same other
registers, the same outputs, the same result and the same events. -/
def Obligations.NoRuleReadsCr1 : Prop :=
  ∀ (i : Instr) (s : State) (c : Word), i ≠ .rdCr1 → i ≠ .save →
    ∃ t c', exec i s = .next t ∧
      exec i { s with regs := { s.regs with cr1 := c } } = .next { t with regs := { t.regs with cr1 := c' } }

/-- 10_state.md section 3 (R26): SSOE and the reserved bits of CR2 have no effect. Two values of CR2 that agree on TXEIE,
RXNEIE and ERRIE lead every operation but RD_CR2 and SAVE to the same other registers, outputs, result and events, and
so does writing them; and the select levels CS_EVAL drives are the same in any two states with the same CSCTRL. That
CR2 then holds all 32 bits written is the spec's own decision D9 (log entry 12). -/
def Obligations.SsoeAndReservedCr2BitsHaveNoEffect : Prop :=
  (∀ (i : Instr) (s : State) (c : Word), i ≠ .rdCr2 → i ≠ .save →
    (∀ k, 5 ≤ k → k ≤ 7 → bit c k = bit s.regs.cr2 k) →
    ∃ t c', exec i s = .next t ∧
      exec i { s with regs := { s.regs with cr2 := c } } = .next { t with regs := { t.regs with cr2 := c' } }) ∧
  (∀ (s : State) (v w : Word), (∀ k, 5 ≤ k → k ≤ 7 → bit v k = bit w k) →
    ∃ t, exec (.wrCr2 v) s = .next t ∧
      exec (.wrCr2 w) s = .next { t with regs := { t.regs with cr2 := w } }) ∧
  (∀ s t : State, s.regs.csctrl = t.regs.csctrl → (csEval s).csLevel = (csEval t).csLevel)

/-- R67 (which the spec derives): the operations it calls idempotent leave the state as it is when repeated; that RESET,
SAVE and RESTORE do too follows from their pseudocode. -/
def Obligations.PlainOperationsAreIdempotent : Prop :=
  ∀ (i : Instr) (s : State), i ≠ .rdDr → (∀ v, i ≠ .wrDr v) → (∀ off, i ≠ .rdInvalid off) →
    (∀ off v, i ≠ .wrInvalid off v) → ∃ t, exec i s = .next t ∧ exec i t = .next t

/-- The events of an operation (R67, R142, R143, R213): one exchange from a DR write with RXNE = 0, one diagnostic from
an invalid access, none from anything else, and no event is ever taken back. The outbound byte is D6 (log entry 10). -/
def Obligations.EventsOfEveryOperation : Prop :=
  ∀ (i : Instr) (s : State), ∃ t bIn, exec i s = .next t ∧
    t.events = s.events ++ match i with
      | .wrDr v => if bit s.regs.sr 0 then [] else [.exchange (v.extractLsb' 0 8) bIn]
      | .rdInvalid off => [.diag off .read]
      | .wrInvalid off _ => [.diag off .write]
      | _ => []

/-- The observation of an operation (R12, R13, R85): what each one gives back, at most one event, none taken back, and
output levels that are the functions of the new registers. That CR2 and CSCTRL read back
as they were written is D9 (log entry 12), that an invalid read gives 0 at every other offset D3 (log entry 9). -/
def Obligations.ObservationOfEveryOperation : Prop :=
  ∀ (i : Instr) (s : State), OutputsAgree s → ∃ t, exec i s = .next t ∧
    (observe s t).irq = irqFn t.regs.cr2 t.regs.sr ∧ (observe s t).csLevel = csFn t.regs.csctrl ∧
    (observe s t).events.length ≤ 1 ∧ t.events = s.events ++ (observe s t).events ∧
    (observe s t).result = match i with
      | .rdCr1 => some (.word s.regs.cr1)
      | .rdCr2 => some (.word s.regs.cr2)
      | .rdSr => some (.word s.regs.sr)
      | .rdDr => some (.word s.regs.dr)
      | .rdCsctrl => some (.word s.regs.csctrl)
      | .rdInvalid _ => some (.word 0x00000000#32)
      | .save => some (.snapshot s.regs)
      | _ => none

/-- What stands outside the block is the model's own (log entries 1, 6, 7), and an operation leaves it alone: the queue
and the instance's number always, the peer's script and draw index but for a DR write with RXNE = 0, which moves both on
by one (R243 for RESET, R142 for a DR write with RXNE = 1), and what the peer has seen of the select lines but for a
change of level that WR_CSCTRL, RESET or RESTORE drives, which is recorded with its place among the exchanges (R14). -/
def Obligations.TheWorldOutsideIsLeftAlone : Prop :=
  ∀ (i : Instr) (s : State), ∃ t, exec i s = .next t ∧
    t.pending = s.pending ∧ t.instanceId = s.instanceId ∧
    (t.peerScript = match i with
      | .wrDr _ => if bit s.regs.sr 0 then s.peerScript else s.peerScript.tail
      | _ => s.peerScript) ∧
    (t.peerDraws = match i with
      | .wrDr _ => if bit s.regs.sr 0 then s.peerDraws else s.peerDraws + 1
      | _ => s.peerDraws) ∧
    (t.selectLog = if t.csLevel = s.csLevel then s.selectLog else s.selectLog ++ [⟨s.peerDraws, t.csLevel⟩])

/-! ### Encoding (30_encoding.md) -/

/-- A few descriptors written out bit by bit (30_encoding.md section 2: `sz`, `cls`, `off`). The descriptor is the spec's
own decision D1, the refused space D1 and D2; the names of the two refusals are the model's (log entry 8). -/
def Obligations.DescriptorsWrittenOutDecode : Prop :=
  decode ⟨0b10000000001100#14, .nothing⟩ = .ok .rdDr ∧
  decode ⟨0b10010000001000#14, .value 0x0000000C#32⟩ = .ok (.wrSr 0x0000000C#32) ∧
  decode ⟨0b10010000010000#14, .value 0x00000031#32⟩ = .ok (.wrCsctrl 0x00000031#32) ∧
  decode ⟨0b10000000010100#14, .nothing⟩ = .ok (.rdInvalid 0x014#10) ∧
  decode ⟨0b10011111111111#14, .value 1#32⟩ = .ok (.wrInvalid 0x3FF#10 1#32) ∧
  decode ⟨0b00100000000000#14, .nothing⟩ = .ok .reset ∧
  decode ⟨0b00100000000011#14, .nothing⟩ = .error .hostSelector ∧
  decode ⟨0b00110000000000#14, .nothing⟩ = .error .reservedClass

/-- Decode of encode is the identity on every well-formed operation, at every operand (the map of 30_encoding.md, D1). -/
def Obligations.DecodeOfEncodeIsIdentity : Prop :=
  ∀ i : Instr, i.WellFormed → decode (encode i) = .ok i

/-- Whatever decodes is well-formed and is the one request that encodes it: no two requests stand for one operation
(R80, R86, R87, which are the spec's own decision D1, log entry 8). That the operand is fixed too rests on the model's
own refusal of an operand of another kind (log entry 3). -/
def Obligations.EncodeOfDecodeIsIdentity : Prop :=
  ∀ (r : Request) (i : Instr), decode r = .ok i → i.WellFormed ∧ encode i = r

/-- 30_encoding.md section 3 (the refused space is the spec's own, D1 and D2, log entry 8): which descriptors stand for
an operation with some operand, and the name of the refusal of every other one, whatever its operand. -/
def Obligations.EveryDescriptorHasOneVerdict : Prop :=
  ∀ d : Descriptor,
    ((∃ o i, decode ⟨d, o⟩ = .ok i) ↔
      ((descCls d = 0#2 ∨ descCls d = 1#2) ∧ descSz d = 2#2) ∨
        (descCls d = 2#2 ∧ descSz d = 0#2 ∧ (descOff d).toNat < 3)) ∧
    (∀ o, descCls d = 3#2 → decode ⟨d, o⟩ = .error .reservedClass) ∧
    (∀ o, (descCls d = 0#2 ∨ descCls d = 1#2) → descSz d ≠ 2#2 → decode ⟨d, o⟩ = .error .accessWidth) ∧
    (∀ o, descCls d = 2#2 → descSz d ≠ 0#2 → decode ⟨d, o⟩ = .error .hostWidth) ∧
    (∀ o, descCls d = 2#2 → descSz d = 0#2 → 3 ≤ (descOff d).toNat → decode ⟨d, o⟩ = .error .hostSelector)

/-- 30_encoding.md section 4 (syntax, D18): a register's name and its offset name the same operation, CSR is CSCTRL, and
`@<off>` names the invalid access of any other offset. -/
def Obligations.NamesAndOffsetsNameTheSameOperation : Prop :=
  (∀ n : RegName, expand (.rd (.reg n)) = expand (.rd (.offset (regOffset n)))) ∧
  (∀ (n : RegName) (v : Word), expand (.wr (.reg n) v) = expand (.wr (.offset (regOffset n)) v)) ∧
  expand (.rd (.reg .csr)) = [.rdCsctrl] ∧ expand (.rd (.reg .cr2)) = [.rdCr2] ∧
  (∀ v : Word, expand (.wr (.reg .csr) v) = [.wrCsctrl v]) ∧
  (∀ (off : Offset) (v : Word), isRegisterOffset off = false →
    expand (.rd (.offset off)) = [.rdInvalid off] ∧ expand (.wr (.offset off) v) = [.wrInvalid off v])

/-- 30_encoding.md section 4 (pseudo-instructions, D18): CSSEL asserts exactly the lines of its mask and CSOFF none. -/
def Obligations.CsselAssertsExactlyItsMask : Prop :=
  ∀ s : State,
    (∀ m : BitVec 4, ∃ t, execAll (expand (.cssel m)) s = .next t ∧ t.csLevel = ~~~m) ∧
    (∃ t, execAll (expand .csoff) s = .next t ∧ t.csLevel = 0xF#4)

/-- 30_encoding.md section 4 (pseudo-instructions, D18): CLRERR, CLROVR and CLRUDR clear the flags they name and leave
every other bit of SR alone; NOP changes nothing but the result. -/
def Obligations.ClearingPseudosClearWhatTheyName : Prop :=
  ∀ s : State,
    (∃ t, execAll (expand .clrerr) s = .next t ∧
      ∀ k, k < 32 → bit t.regs.sr k = (bit s.regs.sr k && !(decide (k = 3) || decide (k = 2)))) ∧
    (∃ t, execAll (expand .clrovr) s = .next t ∧
      ∀ k, k < 32 → bit t.regs.sr k = (bit s.regs.sr k && !decide (k = 3))) ∧
    (∃ t, execAll (expand .clrudr) s = .next t ∧
      ∀ k, k < 32 → bit t.regs.sr k = (bit s.regs.sr k && !decide (k = 2))) ∧
    (execAll (expand .nop) s = .next { s with result := some (.word s.regs.sr) })

/-- 30_encoding.md section 4 (XFER, D18): from an empty buffer, one exchange whose byte is the result of the read, with
the buffer empty again and no error flag changed. The outbound byte is D6 (log entry 10), zero-extension D7 (log entry
11). -/
def Obligations.XferGivesBackThePeersByte : Prop :=
  ∀ (s : State) (v : Word), srRxne s.regs.sr = false →
    ∃ t bIn, execAll (expand (.xfer v)) s = .next t ∧
      t.events = s.events ++ [.exchange (v.extractLsb' 0 8) bIn] ∧
      t.result = some (.word (bIn.setWidth 32)) ∧ srRxne t.regs.sr = false ∧
      srOverrun t.regs.sr = srOverrun s.regs.sr ∧ srUnderrun t.regs.sr = srUnderrun s.regs.sr

/-! ### The step and the world around the block -/

/-- The step takes the first waiting request: where it decodes, the step is that operation on the state with the request
taken; where it is rejected, the step is refused by that name (R12, R16; the queue is log entry 1). -/
def Obligations.StepRunsTheDecodedOperation : Prop :=
  (∀ (s : State) (r : Request) (rest : List Request) (i : Instr), s.pending = r :: rest → decode r = .ok i →
    step s = exec i { s with pending := rest }) ∧
  (∀ (s : State) (r : Request) (rest : List Request) (why : Reject), s.pending = r :: rest →
    decode r = .error why → step s = .refused (.undecodable why)) ∧
  (∀ (s : State) (nbits w : Nat) (i : Instr), decodeTableWord nbits w = some i →
    step (s.withFetchWord nbits w) = exec i s)

/-- R22: with no operation waiting nothing advances. -/
def Obligations.IdleBlockDoesNotAdvance : Prop :=
  ∀ s : State, s.pending = [] → step s = .next s

/-- A run over the encodings of any well-formed operations is those operations' meanings one after the other; it ends
in a state, with nothing waiting, and its outputs agree where they agreed before (R15, R69, R113; log entry 1). -/
def Obligations.RunOfAProgramIsItsMeanings : Prop :=
  ∀ (prog : List Instr) (s : State), (∀ i ∈ prog, i.WellFormed) → s.pending = prog.map encode →
    ∃ t, Sys2Proof.core.run prog.length s = .next t ∧
      execAll prog { s with pending := [] } = .next t ∧ t.pending = [] ∧
      (OutputsAgree s → OutputsAgree t)

/-- A queue in which every request decodes runs safely for any number of steps: never a fault, never a refusal (R113,
R200, R16; log entries 1 and 2). -/
def Obligations.DecodableQueuesRunSafely : Prop :=
  ∀ s : State, AllWaitingDecode s → ∀ k, SafeFor k s

/-- A program in the assembler notation (30_encoding.md section 4, D18) assembles to requests that all decode, and a run
over them is the expansion's meanings one after the other, whatever the program (R15; log entry 1). -/
def Obligations.AssembledProgramsRunAsTheyExpand : Prop :=
  ∀ (prog : List Stmt) (s : State), s.pending = assembleProgram prog →
    AllWaitingDecode s ∧ ∃ t, Sys2Proof.core.run (assembleProgram prog).length s = .next t ∧
      execAll (prog.flatMap expand) { s with pending := [] } = .next t

/-- 00_scope.md section 5 (`MemRead`, `MemWrite`) with 20_memory.md (D4, D5): a 4-byte access that the bus master issues
to an idle block at `SPI_BASE + off` is, at the next step, the dispatcher's operation at `off`. -/
def Obligations.MemoryAccessesRunAtTheNextStep : Prop :=
  ∀ (s : State) (off : Offset) (v : Word), s.pending = [] →
    step (busIssue (memRead s.instanceId off) s) = exec (busRead off) s ∧
    step (busIssue (memWrite s.instanceId off v) s) = exec (busWrite off v) s

/-- 20_memory.md section 1 and 2 (the bus side; `SPI_BASE` is D5, `BUS_BYTE_ORDER` D4, the widths D2, fetches D15,
attributes D14): a 4-byte access at a window address is the dispatcher's operation, a fetch is a read, attributes do not
matter, any other width is refused (the name of the refusal is the model's, log entry 8), and an address outside the
window does not reach the block. -/
def Obligations.BusAccessesReachTheWindow : Prop :=
  (∀ (k : Nat) (off : Offset), ∃ r, busRequest k (memRead k off) = some r ∧ decode r = .ok (busRead off)) ∧
  (∀ (k : Nat) (off : Offset) (v : Word),
    ∃ r, busRequest k (memWrite k off v) = some r ∧ decode r = .ok (busWrite off v)) ∧
  (∀ (k : Nat) (off : Offset), busRequest k { memRead k off with kind := .fetch } = busRequest k (memRead k off)) ∧
  (∀ (k : Nat) (a : BusAccess) (p n : Bool), busRequest k { a with privileged := p, secure := n } = busRequest k a) ∧
  (∀ (k : Nat) (a : BusAccess) (r : Request), busRequest k a = some r → a.width ≠ .bytes4 →
    decode r = .error .accessWidth) ∧
  (∀ (k : Nat) (a : BusAccess),
    (a.addr < Config.spiBase k ∨ Config.spiBase k + 0x400 ≤ a.addr) → busRequest k a = none)

/-- 20_memory.md section 2 (the open parameter `BUS_BYTE_ORDER`, D4): whatever the byte order, a value put on the lanes
is the value taken from them, and the other way round. -/
def Obligations.ByteLanesRoundTrip : Prop :=
  (∀ v : Word, wordOfLanes (lanesOfWord v) = v) ∧
  (∀ lanes : Vector Byte 4, lanesOfWord (wordOfLanes lanes) = lanes)

/-- R45: two instances share no state. An operation on one changes no other, and what it does to the one depends on
that one alone. -/
def Obligations.InstancesShareNoState : Prop :=
  (∀ (k : Nat) (p q : Platform), stepInstance k p = .next q →
    q.length = p.length ∧ ∀ j, j ≠ k → q[j]? = p[j]?) ∧
  (∀ (k : Nat) (p p' q : Platform) (s : State), p[k]? = some s → p'[k]? = some s → stepInstance k p = .next q →
    ∃ q' t, stepInstance k p' = .next q' ∧ step s = .next t ∧ q[k]? = some t ∧ q'[k]? = some t)

/-- R182 and R183, through the platform's bytes (`SNAPSHOT_ENCODING`, D13, log entry 21): whatever lossless encoding the
platform uses, the bytes it keeps of a SAVE, restored in any later state with nothing waiting, give the saved registers
and outputs that agree with them at the next step; and bytes that the encoding cannot read lead to what it says and to
nothing else. That RESTORE loads every value is D12 (log entry 15); the queue is log entry 1. -/
def Obligations.SavedBytesRestoreTheRegisters : Prop :=
  ∀ enc : SnapshotEncoding,
    (enc.Lossless → ∀ s : State, ∃ t bytes, exec .save s = .next t ∧ savedBytes enc t = some bytes ∧
      ∀ u : State, u.pending = [] → ∃ w, step (restoreIssue enc bytes u) = .next w ∧
        w.regs = s.regs ∧ OutputsAgree w ∧ w.pending = []) ∧
    (∀ (bytes : List Byte) (u : State), enc.regsOf bytes = none →
      restoreIssue enc bytes u = { u with pending := u.pending ++ enc.unreadable bytes })
end

