-- ==== Sys2Proof/Laws/Bus.lean ====
section
/-! SUPPORT. Where an address of the bus reaches the window (R60, R63). -/

namespace Sys2Proof.Machine

/-- `SPI_BASE + off` is window offset `off` (R60). -/
theorem windowOffset_at (k : Nat) (off : Offset) : windowOffset k (Config.spiBase k + off.toNat) = some off := by
  have h : off.toNat < windowSize := off.isLt
  simp [windowOffset, h]

/-- An address below or past the window does not reach the block (R63). -/
theorem windowOffset_outside (k a : Nat) (h : a < Config.spiBase k ∨ Config.spiBase k + windowSize ≤ a) :
    windowOffset k a = none := by
  simp only [windowOffset, ite_eq_right_iff, reduceCtorEq, imp_false, not_and]
  omega

/-- An access at `SPI_BASE + off` is the request of that offset. -/
theorem busRequest_at (k : Nat) (off : Offset) (a : BusAccess) (h : a.addr = Config.spiBase k + off.toNat) :
    busRequest k a = some (requestAt off a) := by
  simp [busRequest, h, windowOffset_at]

end Sys2Proof.Machine
end

