-- ==== Sys2Proof/Laws/Decode.lean ====
section
/-! SUPPORT. The fields of a descriptor, and how the two-stage choice of a row (R86) answers. -/

namespace Sys2Proof

/-- The bits of a descriptor, field by field (R80). -/
theorem getLsbD_mkDescriptor (sz cls : BitVec 2) (off : Offset) (i : Nat) (hi : i < 14) :
    (mkDescriptor sz cls off).getLsbD i =
      if i < 10 then off.getLsbD i else if i < 12 then cls.getLsbD (i - 10) else sz.getLsbD (i - 12) := by
  simp only [mkDescriptor, BitVec.getLsbD_or, BitVec.getLsbD_shiftLeft, BitVec.getLsbD_setWidth]
  by_cases h1 : i < 10
  · have h2 : i < 12 := by omega
    simp [h1, h2, hi]
  · have hoff : off.getLsbD i = false := BitVec.getLsbD_of_ge off i (by omega)
    by_cases h2 : i < 12
    · have : i - 10 < 14 := by omega
      simp [h1, h2, hi, hoff, this]
    · have hcls : cls.getLsbD (i - 10) = false := BitVec.getLsbD_of_ge cls _ (by omega)
      have : i - 12 < 14 := by omega
      simp [h1, h2, hi, hoff, hcls, this]

@[simp] theorem descSz_mkDescriptor (sz cls : BitVec 2) (off : Offset) :
    descSz (mkDescriptor sz cls off) = sz := by
  apply BitVec.eq_of_getLsbD_eq
  intro i hi
  have h1 : ¬ 12 + i < 10 := by omega
  simp only [descSz, BitVec.getLsbD_extractLsb', hi, getLsbD_mkDescriptor sz cls off (12 + i) (by omega)]
  simp [h1]

@[simp] theorem descCls_mkDescriptor (sz cls : BitVec 2) (off : Offset) :
    descCls (mkDescriptor sz cls off) = cls := by
  apply BitVec.eq_of_getLsbD_eq
  intro i hi
  have h2 : 10 + i < 12 := by omega
  simp only [descCls, BitVec.getLsbD_extractLsb', hi, getLsbD_mkDescriptor sz cls off (10 + i) (by omega)]
  simp [h2]

@[simp] theorem descOff_mkDescriptor (sz cls : BitVec 2) (off : Offset) :
    descOff (mkDescriptor sz cls off) = off := by
  apply BitVec.eq_of_getLsbD_eq
  intro i hi
  have h0 : 0 + i = i := by omega
  simp only [descOff, BitVec.getLsbD_extractLsb', hi, h0, getLsbD_mkDescriptor sz cls off i (by omega)]
  simp

/-- A descriptor is its three fields (R80). -/
theorem mkDescriptor_fields (d : Descriptor) : mkDescriptor (descSz d) (descCls d) (descOff d) = d := by
  apply BitVec.eq_of_getLsbD_eq
  intro i hi
  rw [getLsbD_mkDescriptor _ _ _ _ hi]
  simp only [descSz, descCls, descOff, BitVec.getLsbD_extractLsb']
  by_cases h1 : i < 10
  · have h0 : 0 + i = i := by omega
    simp [h1]
  · by_cases h2 : i < 12
    · have h3 : 10 + (i - 10) = i := by omega
      have h4 : i - 10 < 2 := by omega
      simp [h1, h2, h3, h4]
    · have h3 : 12 + (i - 12) = i := by omega
      have h4 : i - 12 < 2 := by omega
      simp [h1, h2, h3, h4]

/-- The fixed part of a catch-all row is the descriptor's `sz` and `cls` (R87). -/
theorem catchAll_mask (sz cls : BitVec 2) (off : Offset) :
    mkDescriptor sz cls off &&& 0x3C00#14 = mkDescriptor sz cls 0#10 := by
  apply BitVec.eq_of_getLsbD_eq
  intro i hi
  have mask : ∀ j : Fin 14, (0x3C00#14).getLsbD j.val = decide (10 ≤ j.val) := by decide
  rw [BitVec.getLsbD_and, show BitVec.getLsbD (0x3C00#14 : Descriptor) i = decide (10 ≤ i) from mask ⟨i, hi⟩,
    getLsbD_mkDescriptor _ _ _ _ hi, getLsbD_mkDescriptor _ _ _ _ hi]
  by_cases h : i < 10
  · simp [h]
  · have h10 : 10 ≤ i := by omega
    simp [h, h10]

/-- An exact row matches its own descriptor alone (R87). -/
theorem rowMatches_exact (d p : Descriptor) (op : Op) : rowMatches d ⟨op, p, 0x3FFF#14⟩ = (d == p) := by
  have : d &&& 0x3FFF#14 = d := BitVec.and_allOnes
  simp [rowMatches, this]

/-- A catch-all row matches the descriptors with its `sz` and `cls` (R87). -/
theorem rowMatches_catchAll (d : Descriptor) (op : Op) (sz cls : BitVec 2) :
    rowMatches d ⟨op, mkDescriptor sz cls 0#10, 0x3C00#14⟩ = (descSz d == sz && descCls d == cls) := by
  have h : d &&& 0x3C00#14 = mkDescriptor (descSz d) (descCls d) 0#10 := by
    conv_lhs => rw [← mkDescriptor_fields d]
    exact catchAll_mask _ _ _
  rw [Bool.eq_iff_iff]
  simp only [rowMatches, h, beq_iff_eq, Bool.and_eq_true]
  constructor
  · intro e
    exact ⟨by simpa using congrArg descSz e, by simpa using congrArg descCls e⟩
  · rintro ⟨rfl, rfl⟩
    rfl

/-! The exact rows select themselves (R86, R87). -/

@[simp] theorem selectOp_rdCr1 : selectOp 0x2000#14 = some .rdCr1 := by decide
@[simp] theorem selectOp_wrCr1 : selectOp 0x2400#14 = some .wrCr1 := by decide
@[simp] theorem selectOp_rdCr2 : selectOp 0x2004#14 = some .rdCr2 := by decide
@[simp] theorem selectOp_wrCr2 : selectOp 0x2404#14 = some .wrCr2 := by decide
@[simp] theorem selectOp_rdSr : selectOp 0x2008#14 = some .rdSr := by decide
@[simp] theorem selectOp_wrSr : selectOp 0x2408#14 = some .wrSr := by decide
@[simp] theorem selectOp_rdDr : selectOp 0x200C#14 = some .rdDr := by decide
@[simp] theorem selectOp_wrDr : selectOp 0x240C#14 = some .wrDr := by decide
@[simp] theorem selectOp_rdCsctrl : selectOp 0x2010#14 = some .rdCsctrl := by decide
@[simp] theorem selectOp_wrCsctrl : selectOp 0x2410#14 = some .wrCsctrl := by decide
@[simp] theorem selectOp_reset : selectOp 0x0800#14 = some .reset := by decide
@[simp] theorem selectOp_save : selectOp 0x0801#14 = some .save := by decide
@[simp] theorem selectOp_restore : selectOp 0x0802#14 = some .restore := by decide

/-- A row of priority "exact" has the full mask, and its pattern selects it (R86, R87). -/
theorem exactRows_spec : ∀ r ∈ exactRows, r.mask = 0x3FFF#14 ∧ selectOp r.pattern = some r.op := by decide

/-- The choice of a row, said once (R86): an exact row where the descriptor is its pattern; otherwise a catch-all row by
`sz` and `cls`; otherwise none. -/
theorem selectOp_cases (d : Descriptor) :
    (∃ r ∈ exactRows, d = r.pattern ∧ selectOp d = some r.op) ∨
    ((∀ r ∈ exactRows, d ≠ r.pattern) ∧
      ((descSz d = 2#2 ∧ descCls d = 0#2 ∧ selectOp d = some .rdInvalid) ∨
       (descSz d = 2#2 ∧ descCls d = 1#2 ∧ selectOp d = some .wrInvalid) ∨
       (¬ (descSz d = 2#2 ∧ (descCls d = 0#2 ∨ descCls d = 1#2)) ∧ selectOp d = none))) := by
  by_cases hex : ∃ r ∈ exactRows, d = r.pattern
  · obtain ⟨r, hr, rfl⟩ := hex
    exact .inl ⟨r, hr, rfl, (exactRows_spec r hr).2⟩
  · have hne : ∀ r ∈ exactRows, d ≠ r.pattern := fun r hr e => hex ⟨r, hr, e⟩
    have hn : exactRows.find? (rowMatches d) = none := by
      rw [List.find?_eq_none]
      rintro ⟨op, p, m⟩ hr hm
      have e : m = 0x3FFF#14 := (exactRows_spec _ hr).1
      subst e
      rw [rowMatches_exact, beq_iff_eq] at hm
      exact hne _ hr hm
    have e0 : (0x2000#14 : Descriptor) = mkDescriptor 2#2 0#2 0#10 := by decide
    have e1 : (0x2400#14 : Descriptor) = mkDescriptor 2#2 1#2 0#10 := by decide
    have c0 : rowMatches d ⟨.rdInvalid, 0x2000#14, 0x3C00#14⟩ = (descSz d == 2#2 && descCls d == 0#2) := by
      rw [e0, rowMatches_catchAll]
    have c1 : rowMatches d ⟨.wrInvalid, 0x2400#14, 0x3C00#14⟩ = (descSz d == 2#2 && descCls d == 1#2) := by
      rw [e1, rowMatches_catchAll]
    refine .inr ⟨hne, ?_⟩
    simp only [selectOp, hn, catchAllRows, List.find?_cons, List.find?_nil, c0, c1]
    by_cases hs : descSz d = 2#2 <;> by_cases h0 : descCls d = 0#2 <;> by_cases h1 : descCls d = 1#2 <;>
      simp [beq_eq_decide, hs, h0, h1]

/-- Decoding by a chosen row. -/
theorem decode_of_selectOp (r : Request) (op : Op) (h : selectOp r.desc = some op) :
    decode r = assemble (descOff r.desc) op r.operand := by
  simp [decode, h]

/-- A descriptor that matches no row is refused by its reason (R88). -/
theorem decode_of_no_row (r : Request) (h : selectOp r.desc = none) :
    decode r = .error (rejectReason r.desc) := by
  simp [decode, h]

theorem withNothing_ok (i j : Instr) (o : Operand) : withNothing i o = .ok j ↔ o = .nothing ∧ j = i := by
  cases o <;> simp [withNothing, eq_comm]

theorem withValue_ok (f : Word → Instr) (j : Instr) (o : Operand) :
    withValue f o = .ok j ↔ ∃ v, o = .value v ∧ j = f v := by
  cases o <;> simp [withValue, eq_comm]

theorem withSnapshot_ok (f : Regs → Instr) (j : Instr) (o : Operand) :
    withSnapshot f o = .ok j ↔ ∃ r, o = .snapshot r ∧ j = f r := by
  cases o <;> simp [withSnapshot, eq_comm]

end Sys2Proof
end

