-- ==== Sys2Proof/Laws/Flags.lean ====
section
/-! SUPPORT. The flag computations bit by bit: which bit each one writes, and that it leaves every other bit alone. -/

namespace Sys2Proof.Machine

/-- Two words are equal when all their 32 bits are. -/
theorem word_ext (v w : Word) (h : ∀ i, i < 32 → bit v i = bit w i) : v = w :=
  BitVec.eq_of_getLsbD_eq (fun i hi => h i hi)

theorem bit_setBit (v : Word) (i j : Nat) (hj : j < 32) :
    bit (setBit v i) j = (bit v j || decide (j = i)) := by
  simp only [bit, setBit, BitVec.getLsbD_or, BitVec.getLsbD_shiftLeft, BitVec.getLsbD_one, hj]
  by_cases h : j = i
  · subst h; simp
  · by_cases h2 : j < i
    · simp [h, h2]
    · have : ¬ j - i = 0 := by omega
      simp [h, this]

theorem bit_clearBit (v : Word) (i j : Nat) (hj : j < 32) :
    bit (clearBit v i) j = (bit v j && !decide (j = i)) := by
  simp only [bit, clearBit, BitVec.getLsbD_and, BitVec.getLsbD_not, BitVec.getLsbD_shiftLeft,
    BitVec.getLsbD_one, hj]
  by_cases h : j = i
  · subst h; simp
  · by_cases h2 : j < i
    · simp [h, h2]
    · have : ¬ j - i = 0 := by omega
      simp [h, this]

/-- No word has a bit above 31 (R8). -/
theorem bit_ge (v : Word) (i : Nat) (h : 32 ≤ i) : bit v i = false :=
  BitVec.getLsbD_of_ge v i h

@[simp] theorem bit_setBit_self (v : Word) (i : Nat) (hi : i < 32) : bit (setBit v i) i = true := by
  simp [bit_setBit v i i hi]

@[simp] theorem bit_clearBit_self (v : Word) (i : Nat) (hi : i < 32) : bit (clearBit v i) i = false := by
  simp [bit_clearBit v i i hi]

theorem bit_setBit_ne (v : Word) (i j : Nat) (h : j ≠ i) : bit (setBit v i) j = bit v j := by
  by_cases hj : j < 32
  · simp [bit_setBit v i j hj, h]
  · rw [bit_ge _ _ (by omega), bit_ge _ _ (by omega)]

theorem bit_clearBit_ne (v : Word) (i j : Nat) (h : j ≠ i) : bit (clearBit v i) j = bit v j := by
  by_cases hj : j < 32
  · simp [bit_clearBit v i j hj, h]
  · rw [bit_ge _ _ (by omega), bit_ge _ _ (by omega)]

/-! The field names of R18 in terms of `bit`, the form that simp and the laws use. -/

@[simp] theorem cr1Enable_eq (v : Word) : cr1Enable v = bit v 6 := rfl
@[simp] theorem cr1Master_eq (v : Word) : cr1Master v = bit v 2 := rfl
@[simp] theorem cr2Txeie_eq (v : Word) : cr2Txeie v = bit v 7 := rfl
@[simp] theorem cr2Rxneie_eq (v : Word) : cr2Rxneie v = bit v 6 := rfl
@[simp] theorem cr2Errie_eq (v : Word) : cr2Errie v = bit v 5 := rfl
@[simp] theorem cr2Ssoe_eq (v : Word) : cr2Ssoe v = bit v 4 := rfl
@[simp] theorem srBsy_eq (v : Word) : srBsy v = bit v 7 := rfl
@[simp] theorem srOverrun_eq (v : Word) : srOverrun v = bit v 3 := rfl
@[simp] theorem srUnderrun_eq (v : Word) : srUnderrun v = bit v 2 := rfl
@[simp] theorem srTxe_eq (v : Word) : srTxe v = bit v 1 := rfl
@[simp] theorem srRxne_eq (v : Word) : srRxne v = bit v 0 := rfl
@[simp] theorem csEn_eq (v : Word) (i : Nat) : csEn v i = bit v i := rfl
@[simp] theorem csReq_eq (v : Word) (i : Nat) : csReq v i = bit v (i + 4) := rfl

/-- The write-one-to-clear mask is bits 3 and 2. -/
theorem bit_w1cMask (i : Nat) : bit 0x0000000C#32 i = (decide (i = 2) || decide (i = 3)) := by
  by_cases h : i < 32
  · have : ∀ j : Fin 32, bit 0x0000000C#32 j.val = (decide (j.val = 2) || decide (j.val = 3)) := by decide
    exact this ⟨i, h⟩
  · rw [bit_ge _ _ (by omega)]
    have h2 : i ≠ 2 := by omega
    have h3 : i ≠ 3 := by omega
    simp [h2, h3]

/-- `WR SR` clears bit 3 or 2 where the written bit is 1, and no other bit (R106). -/
theorem bit_srAfterWrite (sr val : Word) (i : Nat) :
    bit (srAfterWrite sr val) i = (bit sr i && !(bit val i && (decide (i = 2) || decide (i = 3)))) := by
  by_cases h : i < 32
  · rw [← bit_w1cMask]
    simp [srAfterWrite, bit, h]
  · rw [bit_ge _ _ (by omega), bit_ge sr _ (by omega)]
    simp

/-- `RD DR` with RXNE = 0 sets UNDERRUN, and no other bit changes (R107). -/
theorem bit_srAfterDataRead_empty (sr : Word) (i : Nat) (h : bit sr 0 = false) :
    bit (srAfterDataRead sr) i = (bit sr i || decide (i = 2)) := by
  by_cases hi : i < 32
  · simp [srAfterDataRead, h, bit_setBit _ _ _ hi]
  · rw [bit_ge _ _ (by omega), bit_ge sr _ (by omega)]
    simp; omega

/-- `RD DR` with RXNE = 1 clears RXNE, and no other bit changes (R107). -/
theorem bit_srAfterDataRead_full (sr : Word) (i : Nat) (h : bit sr 0 = true) :
    bit (srAfterDataRead sr) i = (bit sr i && !decide (i = 0)) := by
  by_cases hi : i < 32
  · simp [srAfterDataRead, h, bit_clearBit _ _ _ hi]
  · rw [bit_ge _ _ (by omega), bit_ge sr _ (by omega)]
    simp

/-- The overrun branch sets OVERRUN, and no other bit changes (R142). -/
theorem bit_srAfterOverrun (sr : Word) (i : Nat) :
    bit (srAfterOverrun sr) i = (bit sr i || decide (i = 3)) := by
  by_cases hi : i < 32
  · simp [srAfterOverrun, bit_setBit _ _ _ hi]
  · rw [bit_ge _ _ (by omega), bit_ge sr _ (by omega)]
    simp; omega

/-- The exchange branch sets RXNE and TXE, and no other bit changes (R143). -/
theorem bit_srAfterExchange (sr : Word) (i : Nat) :
    bit (srAfterExchange sr) i = (bit sr i || decide (i = 0) || decide (i = 1)) := by
  by_cases hi : i < 32
  · simp [srAfterExchange, bit_setBit _ _ _ hi]
  · rw [bit_ge _ _ (by omega), bit_ge sr _ (by omega)]
    have h0 : i ≠ 0 := by omega
    have h1 : i ≠ 1 := by omega
    simp [h0, h1]

/-- IRQ_FN reads CR2 only at bits 7, 6 and 5 and SR only at bits 3, 2, 1 and 0 (R202). -/
theorem irqFn_congr (cr2 cr2' sr sr' : Word)
    (h7 : bit cr2 7 = bit cr2' 7) (h6 : bit cr2 6 = bit cr2' 6) (h5 : bit cr2 5 = bit cr2' 5)
    (h3 : bit sr 3 = bit sr' 3) (h2 : bit sr 2 = bit sr' 2) (h1 : bit sr 1 = bit sr' 1)
    (h0 : bit sr 0 = bit sr' 0) : irqFn cr2 sr = irqFn cr2' sr' := by
  simp only [irqFn, cr2Txeie, cr2Rxneie, cr2Errie, srTxe, srRxne, srOverrun, srUnderrun, *]

/-- Level i is 0 exactly when line i is enabled and requested (R160, R161). -/
theorem csFn_level (csctrl : Word) (i : Nat) (hi : i < 4) :
    (csFn csctrl).getLsbD i = !(csEn csctrl i && csReq csctrl i) := by
  simp [csFn, csEn, csReq, bit, hi, Nat.add_comm]

/-- With every enable 0 the interrupt is de-asserted (R241). -/
@[simp] theorem irqFn_noEnables (sr : Word) : irqFn 0#32 sr = false := by
  simp [irqFn, bit]

/-- With CSCTRL = 0 no line is asserted (R166). -/
@[simp] theorem csFn_zero : csFn 0#32 = 0xF#4 := by decide

/-- CS_EVAL reads nothing above bit 7 (R160, R163). -/
theorem csFn_congr (v w : Word) (h : ∀ i, i < 8 → bit v i = bit w i) : csFn v = csFn w := by
  apply BitVec.eq_of_getLsbD_eq
  intro i hi
  rw [csFn_level v i hi, csFn_level w i hi]
  simp only [csEn, csReq]
  rw [h i (by omega), h (i + 4) (by omega)]

end Sys2Proof.Machine
end

