-- ==== Sys2Proof/Laws/State.lean ====
section
/-! SUPPORT. One lemma per field for each named update of the state, so that no proof unfolds a record update. -/

namespace Sys2Proof.Machine

/-! IRQ_EVAL writes `irq` alone (R203). -/

@[simp] theorem irqEval_regs (s : State) : (irqEval s).regs = s.regs := rfl
@[simp] theorem irqEval_irq (s : State) : (irqEval s).irq = irqFn s.regs.cr2 s.regs.sr := rfl
@[simp] theorem irqEval_csLevel (s : State) : (irqEval s).csLevel = s.csLevel := rfl
@[simp] theorem irqEval_result (s : State) : (irqEval s).result = s.result := rfl
@[simp] theorem irqEval_events (s : State) : (irqEval s).events = s.events := rfl
@[simp] theorem irqEval_pending (s : State) : (irqEval s).pending = s.pending := rfl
@[simp] theorem irqEval_peerScript (s : State) : (irqEval s).peerScript = s.peerScript := rfl
@[simp] theorem irqEval_peerDraws (s : State) : (irqEval s).peerDraws = s.peerDraws := rfl
@[simp] theorem irqEval_selectLog (s : State) : (irqEval s).selectLog = s.selectLog := rfl
@[simp] theorem irqEval_instanceId (s : State) : (irqEval s).instanceId = s.instanceId := rfl

/-! CS_EVAL writes `csLevel` alone (R160), and the peer sees a change of it. -/

@[simp] theorem csEval_regs (s : State) : (csEval s).regs = s.regs := rfl
@[simp] theorem csEval_irq (s : State) : (csEval s).irq = s.irq := rfl
@[simp] theorem csEval_csLevel (s : State) : (csEval s).csLevel = csFn s.regs.csctrl := rfl
@[simp] theorem csEval_result (s : State) : (csEval s).result = s.result := rfl
@[simp] theorem csEval_events (s : State) : (csEval s).events = s.events := rfl
@[simp] theorem csEval_pending (s : State) : (csEval s).pending = s.pending := rfl
@[simp] theorem csEval_peerScript (s : State) : (csEval s).peerScript = s.peerScript := rfl
@[simp] theorem csEval_peerDraws (s : State) : (csEval s).peerDraws = s.peerDraws := rfl
@[simp] theorem csEval_selectLog (s : State) : (csEval s).selectLog = selectSeen s (csFn s.regs.csctrl) := rfl
@[simp] theorem csEval_instanceId (s : State) : (csEval s).instanceId = s.instanceId := rfl

/-! Giving back a word writes `result` alone. -/

@[simp] theorem returnWord_regs (v : Word) (s : State) : (returnWord v s).regs = s.regs := rfl
@[simp] theorem returnWord_irq (v : Word) (s : State) : (returnWord v s).irq = s.irq := rfl
@[simp] theorem returnWord_csLevel (v : Word) (s : State) : (returnWord v s).csLevel = s.csLevel := rfl
@[simp] theorem returnWord_result (v : Word) (s : State) : (returnWord v s).result = some (.word v) := rfl
@[simp] theorem returnWord_events (v : Word) (s : State) : (returnWord v s).events = s.events := rfl
@[simp] theorem returnWord_pending (v : Word) (s : State) : (returnWord v s).pending = s.pending := rfl
@[simp] theorem returnWord_peerScript (v : Word) (s : State) : (returnWord v s).peerScript = s.peerScript := rfl
@[simp] theorem returnWord_peerDraws (v : Word) (s : State) : (returnWord v s).peerDraws = s.peerDraws := rfl
@[simp] theorem returnWord_selectLog (v : Word) (s : State) : (returnWord v s).selectLog = s.selectLog := rfl
@[simp] theorem returnWord_instanceId (v : Word) (s : State) : (returnWord v s).instanceId = s.instanceId := rfl

/-! Giving back a snapshot writes `result` alone. -/

@[simp] theorem returnSnapshot_regs (snap : Regs) (s : State) : (returnSnapshot snap s).regs = s.regs := rfl
@[simp] theorem returnSnapshot_irq (snap : Regs) (s : State) : (returnSnapshot snap s).irq = s.irq := rfl
@[simp] theorem returnSnapshot_csLevel (snap : Regs) (s : State) : (returnSnapshot snap s).csLevel = s.csLevel := rfl
@[simp] theorem returnSnapshot_result (snap : Regs) (s : State) : (returnSnapshot snap s).result = some (.snapshot snap) := rfl
@[simp] theorem returnSnapshot_events (snap : Regs) (s : State) : (returnSnapshot snap s).events = s.events := rfl
@[simp] theorem returnSnapshot_pending (snap : Regs) (s : State) : (returnSnapshot snap s).pending = s.pending := rfl
@[simp] theorem returnSnapshot_peerScript (snap : Regs) (s : State) : (returnSnapshot snap s).peerScript = s.peerScript := rfl
@[simp] theorem returnSnapshot_peerDraws (snap : Regs) (s : State) : (returnSnapshot snap s).peerDraws = s.peerDraws := rfl
@[simp] theorem returnSnapshot_selectLog (snap : Regs) (s : State) : (returnSnapshot snap s).selectLog = s.selectLog := rfl
@[simp] theorem returnSnapshot_instanceId (snap : Regs) (s : State) : (returnSnapshot snap s).instanceId = s.instanceId := rfl

/-! Giving nothing back writes `result` alone. -/

@[simp] theorem returnNothing_regs (s : State) : (returnNothing s).regs = s.regs := rfl
@[simp] theorem returnNothing_irq (s : State) : (returnNothing s).irq = s.irq := rfl
@[simp] theorem returnNothing_csLevel (s : State) : (returnNothing s).csLevel = s.csLevel := rfl
@[simp] theorem returnNothing_result (s : State) : (returnNothing s).result = none := rfl
@[simp] theorem returnNothing_events (s : State) : (returnNothing s).events = s.events := rfl
@[simp] theorem returnNothing_pending (s : State) : (returnNothing s).pending = s.pending := rfl
@[simp] theorem returnNothing_peerScript (s : State) : (returnNothing s).peerScript = s.peerScript := rfl
@[simp] theorem returnNothing_peerDraws (s : State) : (returnNothing s).peerDraws = s.peerDraws := rfl
@[simp] theorem returnNothing_selectLog (s : State) : (returnNothing s).selectLog = s.selectLog := rfl
@[simp] theorem returnNothing_instanceId (s : State) : (returnNothing s).instanceId = s.instanceId := rfl

/-! Recording an event writes `events` alone. -/

@[simp] theorem recordEvent_regs (e : Event) (s : State) : (recordEvent e s).regs = s.regs := rfl
@[simp] theorem recordEvent_irq (e : Event) (s : State) : (recordEvent e s).irq = s.irq := rfl
@[simp] theorem recordEvent_csLevel (e : Event) (s : State) : (recordEvent e s).csLevel = s.csLevel := rfl
@[simp] theorem recordEvent_result (e : Event) (s : State) : (recordEvent e s).result = s.result := rfl
@[simp] theorem recordEvent_events (e : Event) (s : State) : (recordEvent e s).events = s.events ++ [e] := rfl
@[simp] theorem recordEvent_pending (e : Event) (s : State) : (recordEvent e s).pending = s.pending := rfl
@[simp] theorem recordEvent_peerScript (e : Event) (s : State) : (recordEvent e s).peerScript = s.peerScript := rfl
@[simp] theorem recordEvent_peerDraws (e : Event) (s : State) : (recordEvent e s).peerDraws = s.peerDraws := rfl
@[simp] theorem recordEvent_selectLog (e : Event) (s : State) : (recordEvent e s).selectLog = s.selectLog := rfl
@[simp] theorem recordEvent_instanceId (e : Event) (s : State) : (recordEvent e s).instanceId = s.instanceId := rfl

/-! A diagnostic writes `events` alone: it "does not affect state" (R213). -/

@[simp] theorem diag_regs (off : Offset) (kind : AccessKind) (s : State) : (diag off kind s).regs = s.regs := rfl
@[simp] theorem diag_irq (off : Offset) (kind : AccessKind) (s : State) : (diag off kind s).irq = s.irq := rfl
@[simp] theorem diag_csLevel (off : Offset) (kind : AccessKind) (s : State) : (diag off kind s).csLevel = s.csLevel := rfl
@[simp] theorem diag_result (off : Offset) (kind : AccessKind) (s : State) : (diag off kind s).result = s.result := rfl
@[simp] theorem diag_events (off : Offset) (kind : AccessKind) (s : State) : (diag off kind s).events = s.events ++ [.diag off kind] := rfl
@[simp] theorem diag_pending (off : Offset) (kind : AccessKind) (s : State) : (diag off kind s).pending = s.pending := rfl
@[simp] theorem diag_peerScript (off : Offset) (kind : AccessKind) (s : State) : (diag off kind s).peerScript = s.peerScript := rfl
@[simp] theorem diag_peerDraws (off : Offset) (kind : AccessKind) (s : State) : (diag off kind s).peerDraws = s.peerDraws := rfl
@[simp] theorem diag_selectLog (off : Offset) (kind : AccessKind) (s : State) : (diag off kind s).selectLog = s.selectLog := rfl
@[simp] theorem diag_instanceId (off : Offset) (kind : AccessKind) (s : State) : (diag off kind s).instanceId = s.instanceId := rfl

/-! An exchange writes `events` and moves the peer on (R143). -/

@[simp] theorem exchanged_regs (bOut : Byte) (s : State) : (exchanged bOut s).regs = s.regs := rfl
@[simp] theorem exchanged_irq (bOut : Byte) (s : State) : (exchanged bOut s).irq = s.irq := rfl
@[simp] theorem exchanged_csLevel (bOut : Byte) (s : State) : (exchanged bOut s).csLevel = s.csLevel := rfl
@[simp] theorem exchanged_result (bOut : Byte) (s : State) : (exchanged bOut s).result = s.result := rfl
@[simp] theorem exchanged_events (bOut : Byte) (s : State) : (exchanged bOut s).events = s.events ++ [.exchange bOut (peerAnswer s bOut)] := rfl
@[simp] theorem exchanged_pending (bOut : Byte) (s : State) : (exchanged bOut s).pending = s.pending := rfl
@[simp] theorem exchanged_peerScript (bOut : Byte) (s : State) : (exchanged bOut s).peerScript = s.peerScript.tail := rfl
@[simp] theorem exchanged_peerDraws (bOut : Byte) (s : State) : (exchanged bOut s).peerDraws = s.peerDraws + 1 := rfl
@[simp] theorem exchanged_selectLog (bOut : Byte) (s : State) : (exchanged bOut s).selectLog = s.selectLog := rfl
@[simp] theorem exchanged_instanceId (bOut : Byte) (s : State) : (exchanged bOut s).instanceId = s.instanceId := rfl

/-! The overrun branch writes SR and `irq` alone (R142). -/

@[simp] theorem transferOverrun_regs (s : State) : (transferOverrun s).regs = { s.regs with sr := srAfterOverrun s.regs.sr } := rfl
@[simp] theorem transferOverrun_irq (s : State) : (transferOverrun s).irq = irqFn s.regs.cr2 (srAfterOverrun s.regs.sr) := rfl
@[simp] theorem transferOverrun_csLevel (s : State) : (transferOverrun s).csLevel = s.csLevel := rfl
@[simp] theorem transferOverrun_result (s : State) : (transferOverrun s).result = s.result := rfl
@[simp] theorem transferOverrun_events (s : State) : (transferOverrun s).events = s.events := rfl
@[simp] theorem transferOverrun_pending (s : State) : (transferOverrun s).pending = s.pending := rfl
@[simp] theorem transferOverrun_peerScript (s : State) : (transferOverrun s).peerScript = s.peerScript := rfl
@[simp] theorem transferOverrun_peerDraws (s : State) : (transferOverrun s).peerDraws = s.peerDraws := rfl
@[simp] theorem transferOverrun_selectLog (s : State) : (transferOverrun s).selectLog = s.selectLog := rfl
@[simp] theorem transferOverrun_instanceId (s : State) : (transferOverrun s).instanceId = s.instanceId := rfl

/-! The exchange branch writes DR, SR and `irq`, records one event and moves the peer on (R143). -/

@[simp] theorem transferExchange_regs (bOut : Byte) (s : State) : (transferExchange bOut s).regs = { s.regs with dr := inboundWord (peerAnswer s bOut), sr := srAfterExchange s.regs.sr } := rfl
@[simp] theorem transferExchange_irq (bOut : Byte) (s : State) : (transferExchange bOut s).irq = irqFn s.regs.cr2 (srAfterExchange s.regs.sr) := rfl
@[simp] theorem transferExchange_csLevel (bOut : Byte) (s : State) : (transferExchange bOut s).csLevel = s.csLevel := rfl
@[simp] theorem transferExchange_result (bOut : Byte) (s : State) : (transferExchange bOut s).result = s.result := rfl
@[simp] theorem transferExchange_events (bOut : Byte) (s : State) : (transferExchange bOut s).events = s.events ++ [.exchange bOut (peerAnswer s bOut)] := rfl
@[simp] theorem transferExchange_pending (bOut : Byte) (s : State) : (transferExchange bOut s).pending = s.pending := rfl
@[simp] theorem transferExchange_peerScript (bOut : Byte) (s : State) : (transferExchange bOut s).peerScript = s.peerScript.tail := rfl
@[simp] theorem transferExchange_peerDraws (bOut : Byte) (s : State) : (transferExchange bOut s).peerDraws = s.peerDraws + 1 := rfl
@[simp] theorem transferExchange_selectLog (bOut : Byte) (s : State) : (transferExchange bOut s).selectLog = s.selectLog := rfl
@[simp] theorem transferExchange_instanceId (bOut : Byte) (s : State) : (transferExchange bOut s).instanceId = s.instanceId := rfl

/-! Loading the registers writes them and both outputs (R181, R240). -/

@[simp] theorem loadRegs_regs (r : Regs) (s : State) : (loadRegs r s).regs = r := rfl
@[simp] theorem loadRegs_irq (r : Regs) (s : State) : (loadRegs r s).irq = irqFn r.cr2 r.sr := rfl
@[simp] theorem loadRegs_csLevel (r : Regs) (s : State) : (loadRegs r s).csLevel = csFn r.csctrl := rfl
@[simp] theorem loadRegs_result (r : Regs) (s : State) : (loadRegs r s).result = s.result := rfl
@[simp] theorem loadRegs_events (r : Regs) (s : State) : (loadRegs r s).events = s.events := rfl
@[simp] theorem loadRegs_pending (r : Regs) (s : State) : (loadRegs r s).pending = s.pending := rfl
@[simp] theorem loadRegs_peerScript (r : Regs) (s : State) : (loadRegs r s).peerScript = s.peerScript := rfl
@[simp] theorem loadRegs_peerDraws (r : Regs) (s : State) : (loadRegs r s).peerDraws = s.peerDraws := rfl
@[simp] theorem loadRegs_selectLog (r : Regs) (s : State) : (loadRegs r s).selectLog = selectSeen s (csFn r.csctrl) := rfl
@[simp] theorem loadRegs_instanceId (r : Regs) (s : State) : (loadRegs r s).instanceId = s.instanceId := rfl

/-! Issuing a request writes `pending` alone. -/

@[simp] theorem pushRequest_regs (r : Request) (s : State) : (pushRequest r s).regs = s.regs := rfl
@[simp] theorem pushRequest_irq (r : Request) (s : State) : (pushRequest r s).irq = s.irq := rfl
@[simp] theorem pushRequest_csLevel (r : Request) (s : State) : (pushRequest r s).csLevel = s.csLevel := rfl
@[simp] theorem pushRequest_result (r : Request) (s : State) : (pushRequest r s).result = s.result := rfl
@[simp] theorem pushRequest_events (r : Request) (s : State) : (pushRequest r s).events = s.events := rfl
@[simp] theorem pushRequest_pending (r : Request) (s : State) : (pushRequest r s).pending = r :: s.pending := rfl
@[simp] theorem pushRequest_peerScript (r : Request) (s : State) : (pushRequest r s).peerScript = s.peerScript := rfl
@[simp] theorem pushRequest_peerDraws (r : Request) (s : State) : (pushRequest r s).peerDraws = s.peerDraws := rfl
@[simp] theorem pushRequest_selectLog (r : Request) (s : State) : (pushRequest r s).selectLog = s.selectLog := rfl
@[simp] theorem pushRequest_instanceId (r : Request) (s : State) : (pushRequest r s).instanceId = s.instanceId := rfl

/-! The reset state (R41, R241). -/

@[simp] theorem State.reset_regs : State.reset.regs = resetRegs := rfl
@[simp] theorem State.reset_irq : State.reset.irq = false := rfl
@[simp] theorem State.reset_csLevel : State.reset.csLevel = 0xF#4 := rfl
@[simp] theorem State.reset_result : State.reset.result = none := rfl
@[simp] theorem State.reset_events : State.reset.events = [] := rfl
@[simp] theorem State.reset_pending : State.reset.pending = [] := rfl
@[simp] theorem State.reset_peerScript : State.reset.peerScript = [] := rfl
@[simp] theorem State.reset_peerDraws : State.reset.peerDraws = 0 := rfl
@[simp] theorem State.reset_selectLog : State.reset.selectLog = [] := rfl
@[simp] theorem State.reset_instanceId : State.reset.instanceId = 0 := rfl
@[simp] theorem resetRegs_cr1 : resetRegs.cr1 = 0x00000000#32 := rfl
@[simp] theorem resetRegs_cr2 : resetRegs.cr2 = 0x00000000#32 := rfl
@[simp] theorem resetRegs_sr : resetRegs.sr = 0x00000002#32 := rfl
@[simp] theorem resetRegs_dr : resetRegs.dr = 0x0000000C#32 := rfl
@[simp] theorem resetRegs_csctrl : resetRegs.csctrl = 0x00000000#32 := rfl

end Sys2Proof.Machine
end

