-- ==== Sys2Proof/Laws/Ops.lean ====
section
/-! SUPPORT. What the shared operations and each meaning can do, said once. -/

namespace Sys2Proof.Machine

/-- A scripted answer is the answer (R14). -/
theorem peerAnswer_scripted (s : State) (bOut bIn : Byte) (rest : List Byte) (h : s.peerScript = bIn :: rest) :
    peerAnswer s bOut = bIn := by
  simp [peerAnswer, h]

/-- Without a script the answer is the free value (R14, log entry 6). -/
theorem peerAnswer_free (s : State) (bOut : Byte) (h : s.peerScript = []) :
    peerAnswer s bOut = Config.peerByte s.instanceId s.peerDraws (sentBytes s.events) s.selectLog s.csLevel bOut := by
  simp [peerAnswer, h]

/-- Driving the levels they already have shows the peer nothing (R167). -/
theorem selectSeen_same (s : State) : selectSeen s s.csLevel = s.selectLog := by
  simp [selectSeen]

/-- Driving other levels shows the peer one change. -/
theorem selectSeen_change (s : State) (levels : BitVec 4) (h : levels ≠ s.csLevel) :
    selectSeen s levels = s.selectLog ++ [⟨s.peerDraws, levels⟩] := by
  simp [selectSeen, h]

/-- CS_EVAL again, with CSCTRL as it is, changes nothing: "idempotent" (R162). -/
theorem csEval_csEval (s : State) : csEval (csEval s) = csEval s := by
  simp [csEval, selectSeen]

/-- Loading the same values again changes nothing (R181, R240). -/
theorem loadRegs_loadRegs (r : Regs) (s : State) : loadRegs r (loadRegs r s) = loadRegs r s := by
  simp [loadRegs, irqEval, csEval, selectSeen]

/-- With RXNE = 1 a transfer is the overrun branch (R142). -/
theorem transfer_full (bOut : Byte) (s : State) (h : bit s.regs.sr 0 = true) :
    transfer bOut s = transferOverrun s := by
  simp [transfer, h]

/-- With RXNE = 0 a transfer is the exchange branch (R143). -/
theorem transfer_empty (bOut : Byte) (s : State) (h : bit s.regs.sr 0 = false) :
    transfer bOut s = transferExchange bOut s := by
  simp [transfer, h]

/-- A transfer leaves alone what neither branch writes. -/
theorem transfer_frame (bOut : Byte) (s : State) :
    (transfer bOut s).regs.cr1 = s.regs.cr1 ∧ (transfer bOut s).regs.cr2 = s.regs.cr2 ∧
      (transfer bOut s).regs.csctrl = s.regs.csctrl ∧ (transfer bOut s).csLevel = s.csLevel ∧
      (transfer bOut s).result = s.result ∧ (transfer bOut s).pending = s.pending ∧
      (transfer bOut s).instanceId = s.instanceId ∧ (transfer bOut s).selectLog = s.selectLog := by
  unfold transfer
  split <;> simp

/-- A transfer ends in IRQ_EVAL, on either branch (R141). -/
theorem transfer_irq (bOut : Byte) (s : State) :
    (transfer bOut s).irq = irqFn (transfer bOut s).regs.cr2 (transfer bOut s).regs.sr := by
  unfold transfer
  split <;> simp

/-- DR and zero-extension: a bit of the inbound byte below 8, 0 above (R143). -/
theorem bit_inboundWord (b : Byte) (i : Nat) : bit (inboundWord b) i = b.getLsbD i := by
  by_cases hi : i < 32
  · simp [bit, inboundWord, hi]
  · rw [bit_ge _ _ (by omega), BitVec.getLsbD_of_ge b i (by omega)]

/-- The outbound byte is bits 7:0 of the written value (R140). -/
theorem outboundByte_level (v : Word) (i : Nat) : (outboundByte v).getLsbD i = (decide (i < 8) && bit v i) := by
  simp [outboundByte, bit]

/-- `fetch` takes nothing exactly where nothing waits. -/
theorem fetch_none (s : State) : fetch s = none ↔ s.pending = [] := by
  unfold fetch
  cases s.pending <;> simp

/-- `fetch` takes the head of the queue and nothing else. -/
theorem fetch_some (s t : State) (r : Request) :
    fetch s = some (r, t) ↔ ∃ rest, s.pending = r :: rest ∧ t = { s with pending := rest } := by
  unfold fetch
  cases s.pending with
  | nil => simp
  | cons a as =>
    simp only [Option.some.injEq, Prod.mk.injEq, List.cons.injEq]
    constructor
    · rintro ⟨rfl, rfl⟩
      exact ⟨as, ⟨rfl, rfl⟩, rfl⟩
    · rintro ⟨rest, ⟨rfl, rfl⟩, rfl⟩
      exact ⟨rfl, rfl⟩

theorem sentBytes_append (es fs : List Event) : sentBytes (es ++ fs) = sentBytes es ++ sentBytes fs := by
  induction es with
  | nil => rfl
  | cons e es ih => cases e <;> simp [sentBytes, ih]

/-- What RESET leaves (R41, R241). -/
theorem loadRegs_resetRegs (s : State) :
    loadRegs resetRegs s =
      { s with regs := resetRegs, irq := false, csLevel := 0xF#4, selectLog := selectSeen s 0xF#4 } := by
  simp only [loadRegs, irqEval, csEval, resetRegs_cr2, resetRegs_csctrl, irqFn_noEnables, csFn_zero, selectSeen]

/-! What each operation of the map does, as one equation. -/

variable (s : State)

theorem exec_rdCr1 : exec .rdCr1 s = .next (returnWord s.regs.cr1 s) := rfl
theorem exec_wrCr1 (v : Word) :
    exec (.wrCr1 v) s = .next (returnNothing { s with regs := { s.regs with cr1 := v } }) := rfl
theorem exec_rdCr2 : exec .rdCr2 s = .next (returnWord s.regs.cr2 s) := rfl
theorem exec_wrCr2 (v : Word) :
    exec (.wrCr2 v) s = .next (returnNothing (irqEval { s with regs := { s.regs with cr2 := v } })) := rfl
theorem exec_rdSr : exec .rdSr s = .next (returnWord s.regs.sr s) := rfl
theorem exec_wrSr (v : Word) : exec (.wrSr v) s =
    .next (returnNothing (irqEval { s with regs := { s.regs with sr := srAfterWrite s.regs.sr v } })) := rfl
theorem exec_rdDr : exec .rdDr s = .next (returnWord s.regs.dr
    (irqEval { s with regs := { s.regs with sr := srAfterDataRead s.regs.sr } })) := rfl
theorem exec_wrDr (v : Word) :
    exec (.wrDr v) s = .next (returnNothing (transfer (outboundByte v) s)) := rfl
theorem exec_rdCsctrl : exec .rdCsctrl s = .next (returnWord s.regs.csctrl s) := rfl
theorem exec_wrCsctrl (v : Word) : exec (.wrCsctrl v) s =
    .next (returnNothing (csEval { s with regs := { s.regs with csctrl := v } })) := rfl
theorem exec_rdInvalid (off : Offset) :
    exec (.rdInvalid off) s = .next (returnWord 0x00000000#32 (diag off .read s)) := rfl
theorem exec_wrInvalid (off : Offset) (v : Word) :
    exec (.wrInvalid off v) s = .next (returnNothing (diag off .write s)) := rfl
theorem exec_reset : exec .reset s = .next (returnNothing (loadRegs resetRegs s)) := rfl
theorem exec_save : exec .save s = .next (returnSnapshot s.regs s) := rfl
theorem exec_restore (r : Regs) : exec (.restore r) s = .next (returnNothing (loadRegs r s)) := rfl

end Sys2Proof.Machine
end

