-- ==== Sys2Proof/Laws/PerInstr.lean ====
section
/-! SUPPORT. A fact about every operation as syntax: its encoding matches its own row of the map (R87). -/

namespace Sys2Proof.Laws.RowMatch

/-- The row of the map with the given mnemonic. -/
def rowOf (op : Op) : Option MapRow := (exactRows ++ catchAllRows).find? fun r => r.op == op

/-- The descriptor that `encode` builds from the columns sz, cls and off matches the columns match and mask of the
operation's own row. -/
def Statement (i : Instr) : Prop := ∃ r, rowOf i.op = some r ∧ rowMatches (encode i).desc r = true

theorem rdCr1 : Statement .rdCr1 := ⟨_, rfl, by decide⟩
theorem wrCr1 (val : Word) : Statement (.wrCr1 val) :=
  ⟨⟨.wrCr1, 0x2400#14, 0x3FFF#14⟩, rfl, show rowMatches (writeDescriptor 0x000#10) _ = true by decide⟩
theorem rdCr2 : Statement .rdCr2 := ⟨_, rfl, by decide⟩
theorem wrCr2 (val : Word) : Statement (.wrCr2 val) :=
  ⟨⟨.wrCr2, 0x2404#14, 0x3FFF#14⟩, rfl, show rowMatches (writeDescriptor 0x004#10) _ = true by decide⟩
theorem rdSr : Statement .rdSr := ⟨_, rfl, by decide⟩
theorem wrSr (val : Word) : Statement (.wrSr val) :=
  ⟨⟨.wrSr, 0x2408#14, 0x3FFF#14⟩, rfl, show rowMatches (writeDescriptor 0x008#10) _ = true by decide⟩
theorem rdDr : Statement .rdDr := ⟨_, rfl, by decide⟩
theorem wrDr (val : Word) : Statement (.wrDr val) :=
  ⟨⟨.wrDr, 0x240C#14, 0x3FFF#14⟩, rfl, show rowMatches (writeDescriptor 0x00C#10) _ = true by decide⟩
theorem rdCsctrl : Statement .rdCsctrl := ⟨_, rfl, by decide⟩
theorem wrCsctrl (val : Word) : Statement (.wrCsctrl val) :=
  ⟨⟨.wrCsctrl, 0x2410#14, 0x3FFF#14⟩, rfl, show rowMatches (writeDescriptor 0x010#10) _ = true by decide⟩

theorem rdInvalid (off : Offset) : Statement (.rdInvalid off) := by
  refine ⟨⟨.rdInvalid, 0x2000#14, 0x3C00#14⟩, rfl, ?_⟩
  show (readDescriptor off &&& 0x3C00#14 == 0x2000#14) = true
  rw [readDescriptor, catchAll_mask]
  decide

theorem wrInvalid (off : Offset) (val : Word) : Statement (.wrInvalid off val) := by
  refine ⟨⟨.wrInvalid, 0x2400#14, 0x3C00#14⟩, rfl, ?_⟩
  show (writeDescriptor off &&& 0x3C00#14 == 0x2400#14) = true
  rw [writeDescriptor, catchAll_mask]
  decide

theorem reset : Statement .reset := ⟨_, rfl, by decide⟩
theorem save : Statement .save := ⟨_, rfl, by decide⟩
theorem restore (snap : Regs) : Statement (.restore snap) :=
  ⟨⟨.restore, 0x0802#14, 0x3FFF#14⟩, rfl, show rowMatches (hostDescriptor 0x002#10) _ = true by decide⟩

end Sys2Proof.Laws.RowMatch
end

