-- ==== Sys2Proof/Laws/Persistence.lean ====
section
/-! SUPPORT. What the platform keeps and issues, by whether its encoding reads the bytes (R183). -/

namespace Sys2Proof.Machine

/-- After an operation that gave back a snapshot, the platform keeps its bytes. -/
theorem savedBytes_snapshot (enc : SnapshotEncoding) (s : State) (snap : Regs)
    (h : s.result = some (.snapshot snap)) : savedBytes enc s = some (enc.bytesOf snap) := by
  simp [savedBytes, h]

/-- Readable bytes lead to one RESTORE of the values they stand for. -/
theorem restoreRequests_readable (enc : SnapshotEncoding) (bytes : List Byte) (snap : Regs)
    (h : enc.regsOf bytes = some snap) : restoreRequests enc bytes = [encode (.restore snap)] := by
  simp [restoreRequests, h]

/-- Unreadable bytes lead to what the encoding says. -/
theorem restoreRequests_unreadable (enc : SnapshotEncoding) (bytes : List Byte) (h : enc.regsOf bytes = none) :
    restoreRequests enc bytes = enc.unreadable bytes := by
  simp [restoreRequests, h]

/-- The bytes of a snapshot lead to its RESTORE, where the encoding is lossless. -/
theorem restoreRequests_bytesOf (enc : SnapshotEncoding) (h : enc.Lossless) (snap : Regs) :
    restoreRequests enc (enc.bytesOf snap) = [encode (.restore snap)] :=
  restoreRequests_readable enc _ _ (h snap)

@[simp] theorem restoreIssue_pending (enc : SnapshotEncoding) (bytes : List Byte) (s : State) :
    (restoreIssue enc bytes s).pending = s.pending ++ restoreRequests enc bytes := rfl
@[simp] theorem restoreIssue_regs (enc : SnapshotEncoding) (bytes : List Byte) (s : State) :
    (restoreIssue enc bytes s).regs = s.regs := rfl
@[simp] theorem restoreIssue_irq (enc : SnapshotEncoding) (bytes : List Byte) (s : State) :
    (restoreIssue enc bytes s).irq = s.irq := rfl
@[simp] theorem restoreIssue_csLevel (enc : SnapshotEncoding) (bytes : List Byte) (s : State) :
    (restoreIssue enc bytes s).csLevel = s.csLevel := rfl
@[simp] theorem restoreIssue_events (enc : SnapshotEncoding) (bytes : List Byte) (s : State) :
    (restoreIssue enc bytes s).events = s.events := rfl

end Sys2Proof.Machine
end

