-- ==== Sys2Proof/Laws/Step.lean ====
section
/-! SUPPORT. Everything a step can do, said once. -/

namespace Sys2Proof.Machine

theorem step_idle (s : State) (h : s.pending = []) : step s = .next s := by
  simp [step, fetch, h]

theorem step_decoded (s : State) (r : Request) (rest : List Request) (i : Instr)
    (hp : s.pending = r :: rest) (hd : decode r = .ok i) : step s = exec i { s with pending := rest } := by
  simp [step, fetch, hp, hd]

theorem step_rejected (s : State) (r : Request) (rest : List Request) (why : Reject)
    (hp : s.pending = r :: rest) (hd : decode r = .error why) : step s = .refused (.undecodable why) := by
  simp [step, fetch, hp, hd]

/-- One more step of a run, on any machine of the host's interface. -/
theorem run_succ (M : Host.Core) (k : Nat) (s : M.State) :
    M.run (k + 1) s = match M.step s with
      | .next t => M.run k t
      | .fault r => .fault r
      | .refused r => .refused r := rfl

/-- A run whose first step answers `t` goes on from `t`. -/
theorem run_next (M : Host.Core) (k : Nat) (s t : M.State) (h : M.step s = .next t) :
    M.run (k + 1) s = M.run k t := by
  rw [run_succ, h]

/-- The same for this machine. -/
theorem run_of_step (k : Nat) (s t : State) (h : step s = .next t) :
    Sys2Proof.core.run (k + 1) s = Sys2Proof.core.run k t :=
  run_next Sys2Proof.core k s t h

/-- A step that answers a next state either found nothing waiting, or ran the operation of the first request. -/
theorem step_next_cases (s t : State) (h : step s = .next t) :
    (s.pending = [] ∧ t = s) ∨
      ∃ r rest i, s.pending = r :: rest ∧ decode r = .ok i ∧ exec i { s with pending := rest } = .next t := by
  cases hp : s.pending with
  | nil =>
    rw [step_idle s hp] at h
    exact .inl ⟨rfl, by injection h with h; exact h.symm⟩
  | cons r rest =>
    cases hd : decode r with
    | error why =>
      rw [step_rejected s r rest why hp hd] at h
      cases h
    | ok i =>
      rw [step_decoded s r rest i hp hd] at h
      exact .inr ⟨r, rest, i, rfl, hd, h⟩

end Sys2Proof.Machine
end

