-- ==== Sys2Proof/Tests/Slice0.lean ====
section
/-! SUPPORT. Tests whose expected values are the spec's own vectors (95_test_vectors.md E1 to E8 and V1 to V11; 14-bit
descriptors written out from the columns sz, cls and off of rule R87), and for every statement with hypotheses a
concrete state that meets them. -/

namespace Sys2Proof.Tests

open Sys2Proof Sys2Proof.Machine

/-! ### Helpers -/

/-- "Start: `RESTORE r`" of the vectors: the registers with the outputs that follow from them, and a peer that answers
with the given bytes. -/
def start (r : Regs) (script : List Byte := []) : State :=
  { State.reset with regs := r, irq := irqFn r.cr2 r.sr, csLevel := csFn r.csctrl, peerScript := script }

/-- Whether an outcome is a next state with the given property. -/
def answers (o : Host.Outcome State Fault Refusal) (p : State → Bool) : Bool :=
  match o with
  | .next t => p t
  | .fault _ => false
  | .refused _ => false

/-- Whether a request is refused, by that name. -/
def refusedAs (r : Request) (why : Reject) : Bool :=
  match decode r with
  | .ok _ => false
  | .error w => w == why

/-- Whether a request decodes to that operation. -/
def decodesTo (r : Request) (i : Instr) : Bool :=
  match decode r with
  | .ok j => j == i
  | .error _ => false

/-- Whether the operation of a table word is that one, and the first step after reset runs it to a next state. -/
def tableRuns (w : Nat) (i : Instr) : Bool :=
  decodeTableWord 16 w == some i && answers (step (State.reset.withFetchWord 16 w)) fun t => t.pending == []

/-- A snapshot for RESTORE. -/
def snap : Regs := ⟨0x44#32, 0x60#32, 0x03#32, 0x55#32, 0x11#32⟩

/-! ### Decoding: one descriptor for every constructor, bits sz cls off from R87 -/

theorem test_decode_rdCr1 : decodesTo ⟨0b10000000000000#14, .nothing⟩ .rdCr1 = true := by decide
theorem test_decode_wrCr1 : decodesTo ⟨0b10010000000000#14, .value 0x44#32⟩ (.wrCr1 0x44#32) = true := by decide
theorem test_decode_rdCr2 : decodesTo ⟨0b10000000000100#14, .nothing⟩ .rdCr2 = true := by decide
theorem test_decode_wrCr2 : decodesTo ⟨0b10010000000100#14, .value 0x60#32⟩ (.wrCr2 0x60#32) = true := by decide
theorem test_decode_rdSr : decodesTo ⟨0b10000000001000#14, .nothing⟩ .rdSr = true := by decide
theorem test_decode_wrSr : decodesTo ⟨0b10010000001000#14, .value 0x0C#32⟩ (.wrSr 0x0C#32) = true := by decide
theorem test_decode_rdDr : decodesTo ⟨0b10000000001100#14, .nothing⟩ .rdDr = true := by decide
theorem test_decode_wrDr : decodesTo ⟨0b10010000001100#14, .value 0xAA#32⟩ (.wrDr 0xAA#32) = true := by decide
theorem test_decode_rdCsctrl : decodesTo ⟨0b10000000010000#14, .nothing⟩ .rdCsctrl = true := by decide
theorem test_decode_wrCsctrl :
    decodesTo ⟨0b10010000010000#14, .value 0x11#32⟩ (.wrCsctrl 0x11#32) = true := by decide
theorem test_decode_rdInvalid : decodesTo ⟨0b10000000010100#14, .nothing⟩ (.rdInvalid 0x14#10) = true := by decide
theorem test_decode_wrInvalid :
    decodesTo ⟨0b10011111111111#14, .value 7#32⟩ (.wrInvalid 0x3FF#10 7#32) = true := by decide
theorem test_decode_reset : decodesTo ⟨0b00100000000000#14, .nothing⟩ .reset = true := by decide
theorem test_decode_save : decodesTo ⟨0b00100000000001#14, .nothing⟩ .save = true := by decide
theorem test_decode_restore : decodesTo ⟨0b00100000000010#14, .snapshot snap⟩ (.restore snap) = true := by decide

/-- V11, the refused descriptors of the three bus widths, on a read and on a write. -/
theorem test_refused_widths :
    refusedAs ⟨0x0000#14, .nothing⟩ .accessWidth = true ∧ refusedAs ⟨0x1000#14, .nothing⟩ .accessWidth = true ∧
    refusedAs ⟨0x3000#14, .nothing⟩ .accessWidth = true ∧ refusedAs ⟨0x040C#14, .value 0#32⟩ .accessWidth = true ∧
    refusedAs ⟨0x140C#14, .value 0#32⟩ .accessWidth = true ∧
    refusedAs ⟨0x340C#14, .value 0#32⟩ .accessWidth = true := by decide

/-- V11, the other refused descriptors. -/
theorem test_refused_classes_and_selectors :
    refusedAs ⟨0x2C0C#14, .nothing⟩ .reservedClass = true ∧ refusedAs ⟨0x0C00#14, .nothing⟩ .reservedClass = true ∧
    refusedAs ⟨0x3FFF#14, .nothing⟩ .reservedClass = true ∧ refusedAs ⟨0x2800#14, .nothing⟩ .hostWidth = true ∧
    refusedAs ⟨0x0803#14, .nothing⟩ .hostSelector = true ∧
    refusedAs ⟨0x0BFF#14, .nothing⟩ .hostSelector = true := by decide

/-- An operand of the wrong kind (log entry 3). -/
theorem test_refused_operands :
    refusedAs ⟨0x2000#14, .value 0#32⟩ .operandKind = true ∧ refusedAs ⟨0x2400#14, .nothing⟩ .operandKind = true ∧
    refusedAs ⟨0x0802#14, .value 0#32⟩ .operandKind = true := by decide

/-- The rows of the table as the host numbers them: decoded, and run as the first step after reset. -/
theorem test_table_words_run :
    tableRuns 0x2000 .rdCr1 = true ∧ tableRuns 0x2400 (.wrCr1 0#32) = true ∧
    tableRuns 0x2004 .rdCr2 = true ∧ tableRuns 0x2404 (.wrCr2 0#32) = true ∧
    tableRuns 0x2008 .rdSr = true ∧ tableRuns 0x2408 (.wrSr 0#32) = true ∧
    tableRuns 0x200C .rdDr = true ∧ tableRuns 0x240C (.wrDr 0#32) = true ∧
    tableRuns 0x2010 .rdCsctrl = true ∧ tableRuns 0x2410 (.wrCsctrl 0#32) = true ∧
    tableRuns 0x2014 (.rdInvalid 0x14#10) = true ∧ tableRuns 0x2414 (.wrInvalid 0x14#10 0#32) = true ∧
    tableRuns 0x0800 .reset = true ∧ tableRuns 0x0801 .save = true ∧
    tableRuns 0x0802 (.restore ⟨0#32, 0#32, 0#32, 0#32, 0#32⟩) = true := by decide

/-! ### WellFormed: the ill-formed terms are refused (R61, R62) -/

theorem test_wellFormed_refuses_reads :
    ∀ off ∈ registerOffsets, ¬ (Instr.rdInvalid off).WellFormed := by decide
theorem test_wellFormed_refuses_writes :
    ∀ off ∈ registerOffsets, ¬ (Instr.wrInvalid off 0#32).WellFormed := by decide
theorem test_wellFormed_accepts :
    (Instr.rdInvalid 0x001#10).WellFormed ∧ (Instr.rdInvalid 0x00D#10).WellFormed ∧
    (Instr.wrInvalid 0x014#10 0#32).WellFormed ∧ (Instr.wrInvalid 0x3FF#10 0#32).WellFormed := by decide

/-! ### One step each -/

/-- E1. -/
theorem test_reset_state :
    State.reset.regs = ⟨0#32, 0#32, 0x2#32, 0xC#32, 0#32⟩ ∧ State.reset.irq = false ∧
    State.reset.csLevel = 0xF#4 := by decide

/-- V1: CR1 stores and reads back its reserved bits. -/
theorem test_wrCr1_all_bits : answers (exec (.wrCr1 0xFFFFFFFF#32) State.reset) (fun t =>
    t.regs.cr1 == 0xFFFFFFFF#32 && t.regs.sr == 0x2#32 && !t.irq && t.csLevel == 0xF#4) = true := by decide
theorem test_rdCr1 : answers (exec .rdCr1 (start ⟨0x80000001#32, 0#32, 0x2#32, 0xC#32, 0#32⟩)) (fun t =>
    t.result == some (.word 0x80000001#32)) = true := by decide

/-- V1, V2: a source already pending raises the interrupt at once; SSOE enables nothing. -/
theorem test_wrCr2_pending : answers (exec (.wrCr2 0x80#32) State.reset) (fun t =>
    t.regs.cr2 == 0x80#32 && t.irq) = true := by decide
theorem test_wrCr2_ssoe : answers (exec (.wrCr2 0x10#32) (start ⟨0#32, 0#32, 0x8F#32, 0xC#32, 0#32⟩)) (fun t =>
    t.regs.cr2 == 0x10#32 && !t.irq) = true := by decide
theorem test_rdCr2 : answers (exec .rdCr2 (start ⟨0#32, 0xFFFFFFFF#32, 0x2#32, 0xC#32, 0#32⟩)) (fun t =>
    t.result == some (.word 0xFFFFFFFF#32) && t.irq) = true := by decide

/-- E4, V3: write-one-to-clear, and nothing else. -/
theorem test_wrSr_clears_both : answers (exec (.wrSr 0x0C#32) (start ⟨0#32, 0#32, 0x0E#32, 0xC#32, 0#32⟩)) (fun t =>
    t.regs.sr == 0x02#32) = true := by decide
theorem test_wrSr_sets_nothing : answers (exec (.wrSr 0x83#32) (start ⟨0#32, 0#32, 0x0C#32, 0xC#32, 0#32⟩)) (fun t =>
    t.regs.sr == 0x0C#32) = true := by decide
theorem test_rdSr_plain : answers (exec .rdSr (start ⟨0#32, 0#32, 0x8F#32, 0xC#32, 0#32⟩)) (fun t =>
    t.result == some (.word 0x8F#32) && t.regs.sr == 0x8F#32) = true := by decide

/-- E3, V4: an underrun gives back the stale DR. -/
theorem test_rdDr_underrun : answers (exec .rdDr (start ⟨0#32, 0x20#32, 0x02#32, 0xC#32, 0#32⟩)) (fun t =>
    t.result == some (.word 0xC#32) && t.regs.sr == 0x06#32 && t.irq) = true := by decide
/-- V4: a read that clears RXNE leaves OVERRUN alone. -/
theorem test_rdDr_full : answers (exec .rdDr (start ⟨0#32, 0#32, 0x0B#32, 0x77#32, 0#32⟩)) (fun t =>
    t.result == some (.word 0x77#32) && t.regs.sr == 0x0A#32 && t.regs.dr == 0x77#32) = true := by decide

/-- V5 row 4: only the low byte goes out; UNDERRUN stays. -/
theorem test_wrDr_exchange :
    answers (exec (.wrDr 0x123456FF#32) (start ⟨0#32, 0#32, 0x06#32, 0xC#32, 0#32⟩ [0x00#8])) (fun t =>
      t.regs.dr == 0#32 && t.regs.sr == 0x07#32 && t.events == [.exchange 0xFF#8 0x00#8]) = true := by decide
/-- V5 row 7: an overrun exchanges nothing and raises the error interrupt. -/
theorem test_wrDr_overrun :
    answers (exec (.wrDr 0x1#32) (start ⟨0#32, 0x20#32, 0x03#32, 0x55#32, 0#32⟩ [0xFF#8])) (fun t =>
      t.regs.dr == 0x55#32 && t.regs.sr == 0x0B#32 && t.irq && t.events == [] && t.peerScript == [0xFF#8]) =
    true := by decide

/-- V6: requested but not enabled stays de-asserted. -/
theorem test_wrCsctrl_line0 : answers (exec (.wrCsctrl 0x31#32) State.reset) (fun t =>
    t.regs.csctrl == 0x31#32 && t.csLevel == 0b1110#4) = true := by decide
theorem test_wrCsctrl_line3 : answers (exec (.wrCsctrl 0x88#32) State.reset) (fun t =>
    t.csLevel == 0b0111#4) = true := by decide
theorem test_rdCsctrl : answers (exec .rdCsctrl (start ⟨0#32, 0#32, 0x2#32, 0xC#32, 0xFFFFFF0F#32⟩)) (fun t =>
    t.result == some (.word 0xFFFFFF0F#32) && t.csLevel == 0xF#4) = true := by decide

/-- R14: between two exchanges the peer sees a line asserted and released, and the place where it happened. -/
theorem test_peer_sees_select_toggle :
    answers (execAll [.wrDr 0x9F#32, .rdDr, .wrCsctrl 0x11#32, .wrCsctrl 0x00#32, .wrCsctrl 0x100#32]
      (start resetRegs [0xEF#8])) (fun t => t.csLevel == 0xF#4 && t.selectLog == [⟨1, 0xE#4⟩, ⟨1, 0xF#4⟩]) = true := by
  decide

/-- V8: an unaligned offset inside the slot of DR reads 0 and does not read DR; one inside SR's clears nothing. -/
theorem test_rdInvalid : answers (exec (.rdInvalid 0x00D#10) (start snap)) (fun t =>
    t.result == some (.word 0#32) && t.regs == snap && t.events == [.diag 0x00D#10 .read]) = true := by decide
theorem test_wrInvalid : answers (exec (.wrInvalid 0x009#10 0xFFFFFFFF#32) (start snap)) (fun t =>
    t.result == none && t.regs == snap && t.events == [.diag 0x009#10 .write]) = true := by decide

/-- V10 rows 2, 3, 4 and 5. -/
theorem test_reset : answers (exec .reset (start ⟨0x44#32, 0xE0#32, 0x0F#32, 0x55#32, 0xFF#32⟩)) (fun t =>
    t.regs == ⟨0#32, 0#32, 0x2#32, 0xC#32, 0#32⟩ && !t.irq && t.csLevel == 0xF#4) = true := by decide
theorem test_save : answers (exec .save (start ⟨0x44#32, 0xE0#32, 0x0F#32, 0x55#32, 0xFF#32⟩)) (fun t =>
    t.result == some (.snapshot ⟨0x44#32, 0xE0#32, 0x0F#32, 0x55#32, 0xFF#32⟩) && t.regs.sr == 0x0F#32 && t.irq &&
      t.csLevel == 0x0#4) = true := by decide
theorem test_restore : answers (exec (.restore ⟨0#32, 0x40#32, 0x03#32, 0x55#32, 0x11#32⟩) State.reset) (fun t =>
    t.regs == ⟨0#32, 0x40#32, 0x03#32, 0x55#32, 0x11#32⟩ && t.irq && t.csLevel == 0b1110#4) = true := by decide
theorem test_restore_txe_clear :
    answers (exec (.restore ⟨0#32, 0x80#32, 0x80#32, 0x12345678#32, 0xFF#32⟩) State.reset) (fun t =>
      t.regs.dr == 0x12345678#32 && !t.irq && t.csLevel == 0x0#4) = true := by decide

/-- V9: of the 128 combinations of the three enables and the four flags, 83 assert the interrupt. -/
theorem test_irq_count : ((List.range 8).map fun e => ((List.range 16).filter fun f =>
    irqFn (BitVec.ofNat 32 (e * 32)) (BitVec.ofNat 32 f)).length).sum = 83 := by decide

/-- V7, six cells: REQ 1 EN 1, REQ 3 EN 7, REQ A EN 5, REQ A EN E, REQ 6 EN C, REQ F EN F. -/
theorem test_cs_cells :
    csFn 0x11#32 = 0xE#4 ∧ csFn 0x37#32 = 0xC#4 ∧ csFn 0xA5#32 = 0xF#4 ∧ csFn 0xAE#32 = 0x5#4 ∧
    csFn 0x6C#32 = 0xB#4 ∧ csFn 0xFF#32 = 0x0#4 := by decide

/-! ### For every statement with hypotheses, states and operands that meet them -/

/-- WriteOfSrClearsByWritingOne, WritingBackSrClearsTheErrors: the two flags and the last bit. -/
theorem witness_sr_bits : ∀ k ∈ [0, 2, 3, 31], k < 32 := by decide

/-- ReadOfDrClearsRxneOrSetsUnderrun: each clause, and the two reads in a row. -/
theorem witness_readOfDr :
    bit (start ⟨0#32, 0#32, 0x02#32, 0xC#32, 0#32⟩).regs.sr 0 = false ∧
    bit (start ⟨0#32, 0#32, 0x03#32, 0x55#32, 0#32⟩).regs.sr 0 = true := by decide

/-- InvalidAccessesOnlyRecordADiagnostic: offsets on both sides of the registers, and the last of the window. -/
theorem witness_invalidAccess : ∀ off ∈ [0x001#10, 0x00F#10, 0x011#10, 0x014#10, 0x3FF#10],
    off ∉ [0x000#10, 0x004#10, 0x008#10, 0x00C#10, 0x010#10] := by decide

/-- WriteOfDrWhileFullIsAnOverrun. -/
theorem witness_overrun : bit (start ⟨0#32, 0x20#32, 0x03#32, 0x55#32, 0#32⟩).regs.sr 0 = true := by decide

/-- WriteOfDrWhileEmptyExchangesOneByte, EveryAnswerOfThePeerIsAdmitted, AlternatingTransfersLoseNothing,
XferGivesBackThePeersByte, with and without a script. -/
theorem witness_empty :
    bit State.reset.regs.sr 0 = false ∧ srRxne State.reset.regs.sr = false ∧ State.reset.peerScript = [] ∧
    bit (start resetRegs [0x55#8]).regs.sr 0 = false ∧ (start resetRegs [0x55#8]).peerScript = 0x55#8 :: [] := by
  decide

/-- NothingGatesATransferButRxne: two states that differ in all but RXNE and the peer's answer. -/
theorem witness_nothingGates :
    ∃ t t', srRxne (start resetRegs [0x55#8]).regs.sr = false ∧
      srRxne (start ⟨0x44#32, 0xE0#32, 0x8E#32, 0#32, 0xFF#32⟩ [0x55#8, 0x01#8]).regs.sr = false ∧
      (start resetRegs [0x55#8]).peerScript = 0x55#8 :: [] ∧
      (start ⟨0x44#32, 0xE0#32, 0x8E#32, 0#32, 0xFF#32⟩ [0x55#8, 0x01#8]).peerScript = 0x55#8 :: [0x01#8] ∧
      exec (.wrDr 0xAA#32) (start resetRegs [0x55#8]) = .next t ∧
      exec (.wrDr 0xAA#32) (start ⟨0x44#32, 0xE0#32, 0x8E#32, 0#32, 0xFF#32⟩ [0x55#8, 0x01#8]) = .next t' :=
  ⟨_, _, by decide, by decide, by decide, by decide, rfl, rfl⟩

/-- BsyAndReservedSrBitsAreDead: the first reserved bit, BSY and the last bit. -/
theorem witness_deadBits : ∀ k ∈ [4, 7, 31], 4 ≤ k ∧ k < 32 := by decide

/-- OnlyTheNamedOperationsChangeARegister: each antecedent. -/
theorem witness_changes :
    answers (exec (.wrCr1 1#32) State.reset) (fun t => t.regs.cr1 != State.reset.regs.cr1) = true ∧
    answers (exec (.wrCr2 1#32) State.reset) (fun t => t.regs.cr2 != State.reset.regs.cr2) = true ∧
    answers (exec (.wrDr 1#32) (start resetRegs [0x55#8])) (fun t => t.regs.dr != State.reset.regs.dr) = true ∧
    answers (exec (.wrCsctrl 1#32) State.reset) (fun t => t.regs.csctrl != State.reset.regs.csctrl) = true := by decide

/-- AtMostOneErrorPerOperation: each antecedent. -/
theorem witness_oneError :
    (∀ r, Instr.wrDr 1#32 ≠ .restore r) ∧ (∀ r, Instr.rdDr ≠ .restore r) ∧
    (∀ r, Instr.rdInvalid 0x014#10 ≠ .restore r) ∧
    (bit (start ⟨0#32, 0#32, 0x03#32, 0#32, 0#32⟩).regs.sr 3 = false ∧
      answers (exec (.wrDr 1#32) (start ⟨0#32, 0#32, 0x03#32, 0#32, 0#32⟩)) (fun t => bit t.regs.sr 3) = true) ∧
    (bit State.reset.regs.sr 2 = false ∧ answers (exec .rdDr State.reset) (fun t => bit t.regs.sr 2) = true) ∧
    answers (exec (.rdInvalid 0x014#10) State.reset)
      (fun t => t.events == State.reset.events ++ [.diag 0x014#10 .read]) = true :=
  ⟨nofun, nofun, nofun, by decide, by decide, by decide⟩

/-- IrqFunctionIsTheThreePairs: two pairs that agree on the bits it reads and differ on others. -/
theorem witness_irqCongr :
    (∀ k, 5 ≤ k → k ≤ 7 → bit 0xE0#32 k = bit 0xFFFFFFF0#32 k) ∧
    (∀ k, k ≤ 3 → bit 0x0A#32 k = bit 0xFFFFFF8A#32 k) := by
  constructor
  · intro k h5 h7
    interval_cases k <;> decide
  · intro k h3
    interval_cases k <;> decide

/-- The reset state is clean; so is a state with TXEIE set. -/
theorem clean_of_reset_sr (r : Regs) (hs : r.sr = 0x00000002#32) (hd : r.dr = 0x0000000C#32) : NoRestoreRegs r where
  srHigh := by
    intro i h4 h32
    rw [hs]
    interval_cases i <;> decide
  txe := by rw [hs]; decide
  drHigh := by
    intro i h8 h32
    rw [hd]
    interval_cases i <;> decide

/-- TxeieHoldsTheInterrupt: both clauses. -/
theorem witness_txeie :
    OutputsAgree (start ⟨0#32, 0x80#32, 0x02#32, 0x0C#32, 0#32⟩) ∧
    NoRestoreRegs (start ⟨0#32, 0x80#32, 0x02#32, 0x0C#32, 0#32⟩).regs ∧
    bit 0x80#32 7 = true ∧ cr2Txeie (start ⟨0#32, 0x80#32, 0x02#32, 0x0C#32, 0#32⟩).regs.cr2 = true ∧
    (∀ v, Instr.rdDr ≠ .wrCr2 v) ∧ Instr.rdDr ≠ .reset ∧ (∀ r, Instr.rdDr ≠ .restore r) :=
  ⟨⟨rfl, rfl⟩, clean_of_reset_sr _ rfl rfl, by decide, by decide, nofun, nofun,
    nofun⟩

/-- EveryStepKeepsTheOutputsDerived: a step that moves both levels. -/
theorem witness_stepKeepsOutputs :
    ∃ t, OutputsAgree { start resetRegs with pending := [⟨0x0802#14, .snapshot snap⟩] } ∧
      step { start resetRegs with pending := [⟨0x0802#14, .snapshot snap⟩] } = .next t ∧
      t.irq = true ∧ t.csLevel = 0xE#4 :=
  ⟨_, ⟨rfl, rfl⟩, rfl, by decide, by decide⟩

/-- SelectLevelsAreEnableAndRequestInverted, WriteOfCsctrlDrivesTheLines, RestoreLoadsAndRederives: the first and the
last line, and two values of CSCTRL that agree on bits 7:0. -/
theorem witness_lines :
    (0 < 4 ∧ 3 < 4) ∧ (∀ k, k < 8 → bit 0x11#32 k = bit 0xFFFFFF11#32 k) := by
  refine ⟨by decide, ?_⟩
  intro k h
  interval_cases k <;> decide

/-- ResetLeavesTheResetValues, second clause, from a state far from reset. -/
theorem witness_resetTwice :
    ∃ t, exec .reset (start ⟨0x44#32, 0xE0#32, 0x0F#32, 0x55#32, 0xFF#32⟩) = .next t := ⟨_, rfl⟩

/-- RestoreOfASaveRoundTrips, ObservationOfEveryOperation: a state whose outputs agree and are asserted. -/
theorem witness_outputsAgree :
    OutputsAgree (start ⟨0x44#32, 0xE0#32, 0x0F#32, 0x55#32, 0xFF#32⟩) ∧
    (start ⟨0x44#32, 0xE0#32, 0x0F#32, 0x55#32, 0xFF#32⟩).irq = true :=
  ⟨⟨rfl, rfl⟩, by decide⟩

/-- Four bytes of a value, most significant first: one encoding among many. -/
def wordBytes (v : Word) : List Byte := [v.extractLsb' 24 8, v.extractLsb' 16 8, v.extractLsb' 8 8, v.extractLsb' 0 8]

/-- The value of four bytes, most significant first. -/
def bytesWord (a b c d : Byte) : Word := a ++ b ++ c ++ d

theorem bytesWord_wordBytes (v : Word) :
    bytesWord (v.extractLsb' 24 8) (v.extractLsb' 16 8) (v.extractLsb' 8 8) (v.extractLsb' 0 8) = v := by
  simp only [bytesWord]
  rw [BitVec.extractLsb'_append_extractLsb'_eq_extractLsb' (by decide),
    BitVec.extractLsb'_append_extractLsb'_eq_extractLsb' (by decide),
    BitVec.extractLsb'_append_extractLsb'_eq_extractLsb' (by decide)]
  exact BitVec.extractLsb'_eq_self

/-- A platform that writes a version byte and twenty bytes, and resets the block when it cannot read them. -/
def versioned : SnapshotEncoding where
  bytesOf r := 1#8 :: (wordBytes r.cr1 ++ wordBytes r.cr2 ++ wordBytes r.sr ++ wordBytes r.dr ++ wordBytes r.csctrl)
  regsOf
    | [1#8, a3, a2, a1, a0, b3, b2, b1, b0, c3, c2, c1, c0, d3, d2, d1, d0, e3, e2, e1, e0] =>
      some ⟨bytesWord a3 a2 a1 a0, bytesWord b3 b2 b1 b0, bytesWord c3 c2 c1 c0, bytesWord d3 d2 d1 d0,
        bytesWord e3 e2 e1 e0⟩
    | _ => none
  unreadable _ := [encode .reset]

/-- SavedBytesRestoreTheRegisters: a lossless encoding, bytes it cannot read, and a state with nothing waiting. -/
theorem witness_encoding : versioned.Lossless ∧ versioned.regsOf [2#8] = none ∧ State.reset.pending = [] := by
  refine ⟨?_, rfl, rfl⟩
  intro r
  simp only [versioned, wordBytes, List.cons_append, List.nil_append, bytesWord_wordBytes]

/-- WithoutRestoreTheRegistersStayClean: a step that runs an operation. -/
theorem witness_stepStaysClean :
    ∃ t, NoRestoreRegs (start resetRegs [0x55#8]).regs ∧
      NoRestoreWaiting { start resetRegs [0x55#8] with pending := [⟨0x240C#14, .value 0xAA#32⟩] } ∧
      step { start resetRegs [0x55#8] with pending := [⟨0x240C#14, .value 0xAA#32⟩] } = .next t := by
  refine ⟨_, clean_of_reset_sr _ rfl rfl, ?_, rfl⟩
  intro r hr
  rw [List.mem_singleton.mp hr]
  decide

/-- NoRuleReadsCr1, SsoeAndReservedCr2BitsHaveNoEffect: an operation, two values of CR2 that differ only in what nothing
reads, and two states that share CSCTRL alone. -/
theorem witness_deadInputs :
    Instr.rdDr ≠ .rdCr1 ∧ Instr.rdDr ≠ .rdCr2 ∧ Instr.rdDr ≠ .save ∧
    (∀ k, 5 ≤ k → k ≤ 7 → bit 0xFFFFFF5F#32 k = bit (start ⟨0#32, 0x40#32, 0x02#32, 0x0C#32, 0#32⟩).regs.cr2 k) ∧
    (start snap).regs.csctrl = (start ⟨0#32, 0#32, 0x02#32, 0x0C#32, 0x11#32⟩).regs.csctrl := by
  refine ⟨nofun, nofun, nofun, ?_, rfl⟩
  intro k h5 h7
  interval_cases k <;> decide

/-- PlainOperationsAreIdempotent: WR_SR is one of the operations it names. -/
theorem witness_idempotent :
    Instr.wrSr 0x0C#32 ≠ .rdDr ∧ (∀ v, Instr.wrSr 0x0C#32 ≠ .wrDr v) ∧
    (∀ off, Instr.wrSr 0x0C#32 ≠ .rdInvalid off) ∧ (∀ off v, Instr.wrSr 0x0C#32 ≠ .wrInvalid off v) :=
  ⟨nofun, nofun, nofun, nofun⟩

/-- DecodeOfEncodeIsIdentity, EncodeOfDecodeIsIdentity. -/
theorem witness_roundTrip :
    (Instr.wrInvalid 0x3FF#10 0xDEADBEEF#32).WellFormed ∧
    decodesTo ⟨0x27FF#14, .value 0xDEADBEEF#32⟩ (.wrInvalid 0x3FF#10 0xDEADBEEF#32) = true := by decide

/-- EveryDescriptorHasOneVerdict: each class, at the edges. -/
theorem witness_verdicts :
    (descCls 0x2C0C#14 = 3#2) ∧ (descCls 0x1000#14 = 0#2 ∧ descSz 0x1000#14 ≠ 2#2) ∧
    (descCls 0x340C#14 = 1#2 ∧ descSz 0x340C#14 ≠ 2#2) ∧ (descCls 0x2800#14 = 2#2 ∧ descSz 0x2800#14 ≠ 0#2) ∧
    (descCls 0x0803#14 = 2#2 ∧ descSz 0x0803#14 = 0#2 ∧ 3 ≤ (descOff 0x0803#14).toNat) ∧
    (descCls 0x0802#14 = 2#2 ∧ descSz 0x0802#14 = 0#2 ∧ (descOff 0x0802#14).toNat < 3) := by decide

/-- NamesAndOffsetsNameTheSameOperation: the first offset past the registers. -/
theorem witness_names : isRegisterOffset 0x014#10 = false ∧ isRegisterOffset 0x00D#10 = false := by decide

/-- StepRunsTheDecodedOperation: each clause. -/
theorem witness_step :
    ({ State.reset with pending := [⟨0x200C#14, .nothing⟩] }.pending = ⟨0x200C#14, .nothing⟩ :: [] ∧
      decode ⟨0x200C#14, .nothing⟩ = .ok .rdDr) ∧
    ({ State.reset with pending := [⟨0x0803#14, .nothing⟩] }.pending = ⟨0x0803#14, .nothing⟩ :: [] ∧
      decode ⟨0x0803#14, .nothing⟩ = .error .hostSelector) ∧
    decodeTableWord 14 0x240C = some (.wrDr 0#32) := by
  exact ⟨⟨rfl, rfl⟩, ⟨rfl, rfl⟩, by decide⟩

/-- IdleBlockDoesNotAdvance, MemoryAccessesRunAtTheNextStep: nothing waits at reset. -/
theorem witness_idle : State.reset.pending = [] := by decide

/-- A short program: an exchange and the read of its byte, and an invalid write. -/
def program : List Instr := [.wrDr 0xAA#32, .rdDr, .wrInvalid 0x014#10 1#32]

/-- RunOfAProgramIsItsMeanings. -/
theorem witness_run :
    (∀ i ∈ program, i.WellFormed) ∧
    { start resetRegs [0x55#8] with pending := program.map encode }.pending = program.map encode ∧
    OutputsAgree { start resetRegs [0x55#8] with pending := program.map encode } :=
  ⟨by decide, rfl, rfl, rfl⟩

/-- DecodableQueuesRunSafely. -/
theorem witness_decodable :
    AllWaitingDecode { State.reset with pending := [⟨0x0801#14, .nothing⟩, ⟨0x2414#14, .value 1#32⟩] } := by
  intro r hr
  rcases List.mem_cons.mp hr with rfl | hr
  · exact ⟨.save, rfl⟩
  · rw [List.mem_singleton.mp hr]
    exact ⟨.wrInvalid 0x014#10 1#32, rfl⟩

/-- AssembledProgramsRunAsTheyExpand: XFER and CSSEL of program P3 expand to three operations. -/
theorem witness_assembled :
    { State.reset with pending := assembleProgram [.cssel 0x1#4, .xfer 0x9F#32] }.pending =
      assembleProgram [.cssel 0x1#4, .xfer 0x9F#32] ∧
    assembleProgram [.cssel 0x1#4, .xfer 0x9F#32] =
      [⟨0x2410#14, .value 0x11#32⟩, ⟨0x240C#14, .value 0x9F#32⟩, ⟨0x200C#14, .nothing⟩] := by decide

/-- BusAccessesReachTheWindow: a narrow access inside the window, and the first address past it. -/
theorem witness_bus :
    (∃ r, busRequest 0 { memRead 0 0x00C#10 with width := .bytes1 } = some r ∧
      { memRead 0 0x00C#10 with width := .bytes1 }.width ≠ .bytes4) ∧
    Config.spiBase 0 + 0x400 ≤ { memRead 0 0x000#10 with addr := Config.spiBase 0 + 0x400 }.addr :=
  ⟨⟨_, busRequest_at 0 0x00C#10 _ rfl, nofun⟩, le_refl _⟩

/-- InstancesShareNoState: two platforms that agree on instance 1 only, and a step there. -/
theorem witness_instances :
    ∃ q, [State.reset, { State.reset with pending := [⟨0x0800#14, .nothing⟩], instanceId := 1 }][1]? =
        some { State.reset with pending := [⟨0x0800#14, .nothing⟩], instanceId := 1 } ∧
      [start snap, { State.reset with pending := [⟨0x0800#14, .nothing⟩], instanceId := 1 }, State.reset][1]? =
        some { State.reset with pending := [⟨0x0800#14, .nothing⟩], instanceId := 1 } ∧
      stepInstance 1 [State.reset, { State.reset with pending := [⟨0x0800#14, .nothing⟩], instanceId := 1 }] =
        .next q ∧ 0 ≠ 1 :=
  ⟨_, rfl, rfl, rfl, by decide⟩

end Sys2Proof.Tests
end

section
/-! SUPPORT. What every operation does to SR, said once, and the statements about single bits of SR after every
operation (R29, R31, R32, R33, R34). -/

namespace Sys2Proof.Machine

/-! ### The two flag computations that look at RXNE, both branches in one equation -/

/-- SR after a transfer: RXNE chooses between the overrun and the exchange branch (R141). -/
def srAfterTransfer (sr : Word) : Word :=
  if srRxne sr then srAfterOverrun sr else srAfterExchange sr

theorem transfer_sr (bOut : Byte) (s : State) :
    (transfer bOut s).regs.sr = srAfterTransfer s.regs.sr := by
  unfold transfer srAfterTransfer
  split <;> rfl

/-- A transfer leaves RXNE at 1, and raises TXE or OVERRUN by what RXNE was; no other bit changes (R142, R143). -/
theorem bit_srAfterTransfer (sr : Word) (k : Nat) :
    bit (srAfterTransfer sr) k =
      (bit sr k || decide (k = 0) || (!bit sr 0 && decide (k = 1)) || (bit sr 0 && decide (k = 3))) := by
  cases h : bit sr 0 with
  | false => simp [srAfterTransfer, h, bit_srAfterExchange]
  | true =>
    have hk : (bit sr k || decide (k = 0)) = bit sr k := by
      by_cases h0 : k = 0
      · simp [h0, h]
      · simp [h0]
    simp [srAfterTransfer, h, bit_srAfterOverrun, hk]

/-- A DR read leaves RXNE at 0, and raises UNDERRUN where RXNE was 0; no other bit changes (R107). -/
theorem bit_srAfterDataRead (sr : Word) (k : Nat) :
    bit (srAfterDataRead sr) k = ((bit sr k && !decide (k = 0)) || (!bit sr 0 && decide (k = 2))) := by
  cases h : bit sr 0 with
  | true => simp [bit_srAfterDataRead_full sr k h]
  | false =>
    have hk : (bit sr k && !decide (k = 0)) = bit sr k := by
      by_cases h0 : k = 0
      · simp [h0, h]
      · simp [h0]
    simp [bit_srAfterDataRead_empty sr k h, hk]

/-- The reset value of SR is TXE alone (R41). -/
theorem bit_resetSr (k : Nat) : bit resetRegs.sr k = decide (k = 1) := by
  have hset : resetRegs.sr = setBit 0#32 1 := by decide
  rw [hset]
  by_cases h : k = 1
  · simp [h]
  · rw [bit_setBit_ne _ _ _ h]
    simp [h, bit]

/-! ### SR after any operation -/

/-- SR after an operation. -/
def srAfter (i : Instr) (sr : Word) : Word :=
  match i with
  | .wrSr v => srAfterWrite sr v
  | .rdDr => srAfterDataRead sr
  | .wrDr _ => srAfterTransfer sr
  | .reset => resetRegs.sr
  | .restore snap => snap.sr
  | _ => sr

/-- Every operation completes (R113), and what it does to SR rests on SR alone. -/
theorem exec_sr (i : Instr) (s : State) : ∃ t, exec i s = .next t ∧ t.regs.sr = srAfter i s.regs.sr := by
  cases i with
  | wrDr v => exact ⟨_, exec_wrDr s v, transfer_sr (outboundByte v) s⟩
  | _ => exact ⟨_, rfl, rfl⟩

/-- Every bit of SR after every operation. -/
theorem bit_srAfter (i : Instr) (sr : Word) (k : Nat) :
    bit (srAfter i sr) k = match i with
      | .wrSr v => bit sr k && !(bit v k && (decide (k = 2) || decide (k = 3)))
      | .rdDr => (bit sr k && !decide (k = 0)) || (!bit sr 0 && decide (k = 2))
      | .wrDr _ =>
        bit sr k || decide (k = 0) || (!bit sr 0 && decide (k = 1)) || (bit sr 0 && decide (k = 3))
      | .reset => decide (k = 1)
      | .restore snap => bit snap.sr k
      | _ => bit sr k := by
  cases i with
  | wrSr v => exact bit_srAfterWrite sr v k
  | rdDr => exact bit_srAfterDataRead sr k
  | wrDr v => exact bit_srAfterTransfer sr k
  | reset => exact bit_resetSr k
  | _ => rfl

/-- Settles O15: the operations that compute SR from SR write no bit above 3. -/
theorem bsyAndReservedSrBitsAreDead : Obligations.BsyAndReservedSrBitsAreDead := by
  intro i s k h4 _
  obtain ⟨t, ht, hsr⟩ := exec_sr i s
  refine ⟨t, ht, ?_⟩
  have hk : k ≠ 0 ∧ k ≠ 1 ∧ k ≠ 2 ∧ k ≠ 3 := by omega
  rw [hsr, bit_srAfter]
  cases i <;> simp [hk]

/-- Settles O16: the bits of SR after every operation, at bit 0. -/
theorem rxneAfterEveryOperation : Obligations.RxneAfterEveryOperation := by
  intro i s
  obtain ⟨t, ht, hsr⟩ := exec_sr i s
  refine ⟨t, ht, ?_⟩
  rw [hsr, bit_srAfter]
  cases i <;> simp

/-- A DR read of the empty buffer followed by two DR writes leaves both error flags at 1, whatever the peer answers. -/
theorem bothErrors_of_read_write_write (v w : Word) :
    ∃ t, execAll [.rdDr, .wrDr v, .wrDr w] State.reset = .next t ∧
      bit t.regs.sr 3 = true ∧ bit t.regs.sr 2 = true := by
  refine ⟨_, rfl, ?_, ?_⟩
  · simp [transfer_sr, bit_srAfterTransfer]
  · have hreset : bit 0x00000002#32 0 = false := by decide
    simp [transfer_sr, bit_srAfterTransfer, bit_srAfterDataRead, hreset]

/-- Settles O17: the bits of SR after every operation, at bits 3 and 2, and a run that raises both. -/
theorem errorFlagsAfterEveryOperation : Obligations.ErrorFlagsAfterEveryOperation := by
  refine ⟨fun i s => ?_, bothErrors_of_read_write_write⟩
  obtain ⟨t, ht, hsr⟩ := exec_sr i s
  refine ⟨t, ht, ?_, ?_⟩
  · rw [hsr, bit_srAfter]
    cases i <;> simp
  · rw [hsr, bit_srAfter]
    cases i <;> simp

end Sys2Proof.Machine
end

section
/-! SUPPORT. CR1 is read by no rule (R24): replacing it commutes with every operation that does not give it back. -/

namespace Sys2Proof.Machine

/-- `s` with another value in CR1. -/
def withCr1 (c : Word) (s : State) : State := { s with regs := { s.regs with cr1 := c } }

theorem transfer_withCr1 (bOut : Byte) (c : Word) (s : State) :
    transfer bOut (withCr1 c s) = withCr1 c (transfer bOut s) := by
  cases h : bit s.regs.sr 0 with
  | true => rw [transfer_full bOut s h, transfer_full bOut (withCr1 c s) h]; rfl
  | false => rw [transfer_empty bOut s h, transfer_empty bOut (withCr1 c s) h]; rfl

/-- The registers an operation loads from its operand or from the reset values hide what CR1 held before. -/
theorem loadRegs_withCr1 (r : Regs) (c : Word) (s : State) : loadRegs r (withCr1 c s) = loadRegs r s := rfl

/-- Settles O37: WR CR1, RESET and RESTORE load CR1 afresh, and every other operation carries its value along. -/
theorem noRuleReadsCr1 : Obligations.NoRuleReadsCr1 := by
  intro i s c hread hsave
  change ∃ t c', exec i s = .next t ∧ exec i (withCr1 c s) = .next (withCr1 c' t)
  cases i with
  | rdCr1 => exact absurd rfl hread
  | save => exact absurd rfl hsave
  | wrCr1 v => exact ⟨_, v, exec_wrCr1 s v, rfl⟩
  | reset => exact ⟨_, resetRegs.cr1, exec_reset s, by rw [exec_reset, loadRegs_withCr1]; rfl⟩
  | restore r => exact ⟨_, r.cr1, exec_restore s r, by rw [exec_restore, loadRegs_withCr1]; rfl⟩
  | wrDr v => exact ⟨_, c, exec_wrDr s v, by rw [exec_wrDr, transfer_withCr1]; rfl⟩
  | _ => exact ⟨_, c, rfl, rfl⟩

end Sys2Proof.Machine
end

section
/-! SUPPORT. What a step at one place does to the platform (R45). -/

namespace Sys2Proof.Machine

theorem stepInstance_absent (k : Nat) (p : Platform) (h : p[k]? = none) : stepInstance k p = .next p := by
  simp [stepInstance, h]

theorem stepInstance_of_step (k : Nat) (p : Platform) (s t : State) (hs : p[k]? = some s) (ht : step s = .next t) :
    stepInstance k p = .next (p.set k t) := by
  simp [stepInstance, hs, ht]

/-- A platform step at a place that holds a block is that block's own step, put back in its place. -/
theorem stepInstance_next_inv (k : Nat) (p q : Platform) (s : State) (hs : p[k]? = some s)
    (h : stepInstance k p = .next q) : ∃ t, step s = .next t ∧ q = p.set k t := by
  simp only [stepInstance, hs] at h
  cases hstep : step s with
  | next t =>
    rw [hstep] at h
    exact ⟨t, rfl, (Host.Outcome.next.inj h).symm⟩
  | fault f => rw [hstep] at h; cases h
  | refused r => rw [hstep] at h; cases h

theorem getElem?_set_of_present (p : Platform) (k : Nat) (s t : State) (hs : p[k]? = some s) :
    (p.set k t)[k]? = some t :=
  List.getElem?_set_self (List.getElem?_eq_some_iff.mp hs).1

/-- A platform step at place `k` leaves the other places as they were (R45). -/
theorem stepInstance_frame (k : Nat) (p q : Platform) (h : stepInstance k p = .next q) :
    q.length = p.length ∧ ∀ j, j ≠ k → q[j]? = p[j]? := by
  cases hs : p[k]? with
  | none =>
    rw [stepInstance_absent k p hs] at h
    cases h
    exact ⟨rfl, fun _ _ => rfl⟩
  | some s =>
    obtain ⟨t, -, rfl⟩ := stepInstance_next_inv k p q s hs h
    exact ⟨List.length_set, fun j hj => List.getElem?_set_ne hj.symm⟩

/-- Settles O59, from the frame of a platform step and the step of the one block it moves. -/
theorem instancesShareNoState : Obligations.InstancesShareNoState := by
  refine ⟨stepInstance_frame, fun k p p' q s hs hs' h => ?_⟩
  obtain ⟨t, ht, rfl⟩ := stepInstance_next_inv k p q s hs h
  exact ⟨p'.set k t, t, stepInstance_of_step k p' s t hs' ht, ht,
    getElem?_set_of_present p k s t hs, getElem?_set_of_present p' k s t hs'⟩

end Sys2Proof.Machine
end

section
/-! SUPPORT. RESET (R41, R166, R240). -/

namespace Sys2Proof.Machine

theorem loadRegs_returnNothing (r : Regs) (s : State) :
    loadRegs r (returnNothing s) = returnNothing (loadRegs r s) := rfl

/-- A load that gives nothing back leaves the same state when it is repeated (R181, R240). -/
theorem returnNothing_loadRegs_idem (r : Regs) (s : State) :
    returnNothing (loadRegs r (returnNothing (loadRegs r s))) = returnNothing (loadRegs r s) := by
  rw [loadRegs_returnNothing, loadRegs_loadRegs]
  rfl

/-- Settles O30, from what a load of the reset values leaves and that a repeated load changes nothing. -/
theorem resetLeavesTheResetValues : Obligations.ResetLeavesTheResetValues := by
  refine ⟨fun s => ?_, fun s t h => ?_, rfl, rfl, rfl⟩
  · rw [exec_reset, loadRegs_resetRegs]
    rfl
  · rw [exec_reset] at h
    cases h
    rw [exec_reset, returnNothing_loadRegs_idem]

end Sys2Proof.Machine
end

section
/-! SUPPORT. The Register File's reads and writes of CR1, SR and DR (R101, R102, R105, R106, R107), and that every
operation completes (R113, R200). -/

namespace Sys2Proof.Machine

/-- A request stands for the operation that its row of the map assembles (R86). -/
theorem decode_eq_ok {r : Request} {op : Op} {i : Instr} (hop : selectOp r.desc = some op)
    (hi : assemble (descOff r.desc) op r.operand = .ok i) : decode r = .ok i :=
  (decode_of_selectOp r op hop).trans hi

/-- Giving back a word, as a record update: only `result` is written (R10). -/
theorem returnWord_eq (v : Word) (s : State) : returnWord v s = { s with result := some (.word v) } := rfl

/-- What WR CR1 stores is what RD CR1 gives back, in all 32 bits (R101, R102). -/
theorem rdCr1_after_wrCr1 (s : State) (v : Word) :
    ∃ t u, exec (.wrCr1 v) s = .next t ∧ exec .rdCr1 t = .next u ∧ u.result = some (.word v) :=
  ⟨_, _, exec_wrCr1 s v, exec_rdCr1 _, rfl⟩

/-- Settles O1: both reads are `returnWord` of the register. -/
theorem readsOfCr1AndSrArePlain : Obligations.ReadsOfCr1AndSrArePlain := by
  refine ⟨decode_eq_ok selectOp_rdCr1 rfl, decode_eq_ok selectOp_rdSr rfl, fun s => ?_, fun s => ?_,
    rdCr1_after_wrCr1, _, exec_rdSr State.reset, rfl⟩
  · rw [exec_rdCr1, returnWord_eq]
  · rw [exec_rdSr, returnWord_eq]

/-- Settles O3: WR CR1 is a record update of CR1, giving nothing back. -/
theorem writeOfCr1StoresAndDoesNothingElse : Obligations.WriteOfCr1StoresAndDoesNothingElse :=
  fun s v => ⟨decode_eq_ok selectOp_wrCr1 rfl, exec_wrCr1 s v⟩

/-- The write-one-to-clear of SR as a case on the bit: OVERRUN and UNDERRUN fall to a written 1, the others stay
(R106). -/
theorem bit_srAfterWrite_ite (sr v : Word) (k : Nat) :
    bit (srAfterWrite sr v) k = if k = 3 ∨ k = 2 then (bit sr k && !bit v k) else bit sr k := by
  rw [bit_srAfterWrite]
  by_cases h : k = 3 ∨ k = 2
  · obtain rfl | rfl := h <;> simp
  · obtain ⟨h3, h2⟩ := not_or.mp h
    simp [h3, h2]

/-- Settles O5: the new SR is `srAfterWrite`, read bit by bit. -/
theorem writeOfSrClearsByWritingOne : Obligations.WriteOfSrClearsByWritingOne :=
  fun s v => ⟨decode_eq_ok selectOp_wrSr rfl, srAfterWrite s.regs.sr v, exec_wrSr s v, rfl,
    fun k _ => bit_srAfterWrite_ite s.regs.sr v k⟩

/-- Two DR reads in a row from a full buffer: the first empties it without touching UNDERRUN, the second gives the same
value back and records the underrun (R107). -/
theorem rdDr_twice_of_full (s : State) (h : bit s.regs.sr 0 = true) :
    ∃ t u, exec .rdDr s = .next t ∧ exec .rdDr t = .next u ∧ u.result = t.result ∧
      bit t.regs.sr 0 = false ∧ bit t.regs.sr 2 = bit s.regs.sr 2 ∧ bit u.regs.sr 2 = true := by
  refine ⟨_, _, exec_rdDr s, exec_rdDr _, rfl, ?_, ?_, ?_⟩
  · simp [bit_srAfterDataRead, h]
  · simp [bit_srAfterDataRead, h]
  · simp [bit_srAfterDataRead]

/-- Settles O6: the new SR is `srAfterDataRead`, read bit by bit on either value of RXNE. -/
theorem readOfDrClearsRxneOrSetsUnderrun : Obligations.ReadOfDrClearsRxneOrSetsUnderrun :=
  ⟨decode_eq_ok selectOp_rdDr rfl,
    fun s => ⟨srAfterDataRead s.regs.sr, exec_rdDr s,
      fun hempty k _ => bit_srAfterDataRead_empty s.regs.sr k hempty,
      fun hfull k _ => bit_srAfterDataRead_full s.regs.sr k hfull⟩,
    rdDr_twice_of_full⟩

/-! ### Completion -/

/-- Every operation of the map answers a next state (R113). -/
theorem exec_completes (i : Instr) (s : State) : ∃ t, exec i s = .next t := by
  obtain ⟨t, ht, -⟩ := exec_sr i s
  exact ⟨t, ht⟩

/-- A bus read gives a 32-bit value back, whichever operation the dispatcher chooses for its offset (R100, R113). -/
theorem exec_busRead_result (off : Offset) (s : State) :
    ∃ t v, exec (busRead off) s = .next t ∧ t.result = some (.word v) := by
  unfold busRead
  split_ifs
  · exact ⟨_, _, exec_rdCr1 s, rfl⟩
  · exact ⟨_, _, exec_rdCr2 s, rfl⟩
  · exact ⟨_, _, exec_rdSr s, rfl⟩
  · exact ⟨_, _, exec_rdDr s, rfl⟩
  · exact ⟨_, _, exec_rdCsctrl s, rfl⟩
  · exact ⟨_, _, exec_rdInvalid s off, rfl⟩

/-- A step answers a next state, unless the decoder rejects the request it takes (R16, R88). -/
theorem step_next_or_refused (s : State) :
    (∃ t, step s = .next t) ∨ ∃ why, step s = .refused (.undecodable why) := by
  cases hp : s.pending with
  | nil => exact .inl ⟨s, step_idle s hp⟩
  | cons r rest =>
    cases hd : decode r with
    | error why => exact .inr ⟨why, step_rejected s r rest why hp hd⟩
    | ok i =>
      rw [step_decoded s r rest i hp hd]
      exact .inl (exec_completes i _)

/-- A step ends in a state or a refusal, so in no fault (R200). -/
theorem step_ne_fault (s : State) (f : Fault) : step s ≠ .fault f := by
  intro hf
  obtain ⟨t, ht⟩ | ⟨why, hr⟩ := step_next_or_refused s
  · cases hf.symm.trans ht
  · cases hf.symm.trans hr

/-- Settles O9: every operation completes, hence every bus access and every step that runs one. -/
theorem everyOperationCompletes : Obligations.EveryOperationCompletes :=
  ⟨exec_completes, exec_busRead_result, fun off v => exec_completes (busWrite off v), step_ne_fault⟩

end Sys2Proof.Machine
end

section
/-! SUPPORT. The overrun branch of the Transfer Engine (R142). -/

namespace Sys2Proof.Machine

/-- With RXNE = 1 a DR write is the overrun branch, whatever value is written (R142). -/
theorem exec_wrDr_full (s : State) (v : Word) (h : bit s.regs.sr 0 = true) :
    exec (.wrDr v) s = .next (returnNothing (transferOverrun s)) := by
  rw [exec_wrDr, transfer_full (outboundByte v) s h]

/-- Settles O10: the new SR is `srAfterOverrun`, and the overrun branch writes SR and the interrupt level alone. -/
theorem writeOfDrWhileFullIsAnOverrun : Obligations.WriteOfDrWhileFullIsAnOverrun :=
  fun s v hfull => ⟨srAfterOverrun s.regs.sr, exec_wrDr_full s v hfull,
    fun k _ => bit_srAfterOverrun s.regs.sr k⟩

end Sys2Proof.Machine
end

section
/-! SUPPORT. The Chip-Select Controller's derivation of the four levels (R160, R161, R163). -/

namespace Sys2Proof.Machine

/-- R160's vector form: the enables are CSCTRL[3:0], the requests CSCTRL[7:4]. -/
theorem csFn_eq_not_and (v : Word) : csFn v = ~~~(v.extractLsb' 0 4 &&& v.extractLsb' 4 4) := rfl

/-- R160's single-line form, over the bits of CSCTRL: bit i enables line i and bit i+4 requests it. -/
theorem csFn_level_bit (v : Word) (i : Nat) (hi : i < 4) :
    (csFn v).getLsbD i = !(bit v i && bit v (i + 4)) := by
  rw [csFn_level v i hi, csEn_eq, csReq_eq]

/-- CS_EVAL as a record update: of the block only the levels are written, and the peer sees the change (R160; log
entry 6). -/
theorem csEval_eq (s : State) :
    csEval s = { s with csLevel := csFn s.regs.csctrl, selectLog := selectSeen s (csFn s.regs.csctrl) } := rfl

/-- Settles O27: the single-line form of the levels, their vector form, CS_EVAL as a record update, and that the levels
rest on CSCTRL[7:0] alone. -/
theorem selectLevelsAreEnableAndRequestInverted : Obligations.SelectLevelsAreEnableAndRequestInverted :=
  ⟨csFn_level_bit, csFn_eq_not_and, csEval_eq, csFn_congr⟩

end Sys2Proof.Machine
end

section
/-! SUPPORT. SAVE (R180, R44). -/

namespace Sys2Proof.Machine

/-- Giving back a snapshot, as a record update: only `result` is written (R180). -/
theorem returnSnapshot_eq (snap : Regs) (s : State) :
    returnSnapshot snap s = { s with result := some (.snapshot snap) } := rfl

/-- Settles O32: SAVE is `returnSnapshot` of the register file, from every state and from the reset state. -/
theorem saveGivesBackTheFiveRegisters : Obligations.SaveGivesBackTheFiveRegisters := by
  refine ⟨decode_eq_ok selectOp_save rfl, fun s => ?_, _, exec_save State.reset, rfl⟩
  rw [exec_save, returnSnapshot_eq]

end Sys2Proof.Machine
end

section
/-! SUPPORT. The Interrupt Evaluator's function in bit form (R202). -/

namespace Sys2Proof.Machine

/-- R202's formula over the bits: CR2[7] (TXEIE) enables SR[1] (TXE), CR2[6] (RXNEIE) enables SR[0] (RXNE), and CR2[5]
(ERRIE) enables either error flag, SR[3] or SR[2]. -/
theorem irqFn_eq_three_pairs (cr2 sr : Word) :
    irqFn cr2 sr =
      ((bit cr2 7 && bit sr 1) || (bit cr2 6 && bit sr 0) || (bit cr2 5 && (bit sr 3 || bit sr 2))) := rfl

/-- R202: the level rests on the two fields CR2[7:5] and SR[3:0] alone. -/
theorem irqFn_congr_fields (cr2 cr2' sr sr' : Word)
    (hcr2 : ∀ k, 5 ≤ k → k ≤ 7 → bit cr2 k = bit cr2' k) (hsr : ∀ k, k ≤ 3 → bit sr k = bit sr' k) :
    irqFn cr2 sr = irqFn cr2' sr' := by
  apply irqFn_congr
  case h7 | h6 | h5 => exact hcr2 _ (by decide) (by decide)
  case h3 | h2 | h1 | h0 => exact hsr _ (by decide)

/-- Settles O22: IRQ_FN in bit form, and that it reads no bit outside the two fields. -/
theorem irqFunctionIsTheThreePairs : Obligations.IrqFunctionIsTheThreePairs :=
  ⟨irqFn_eq_three_pairs, irqFn_congr_fields⟩

end Sys2Proof.Machine
end

section
/-! SUPPORT. The decoder against the dispatcher and against the encoder: every 4-byte bus descriptor decodes to the
dispatcher's choice (R83, R86, R100), and encoding and decoding undo each other (R80, R87). -/

namespace Sys2Proof.Machine

/-! ### Bus descriptors -/

/-- A register row of the map has the offset of a register (R61, R87). -/
theorem isRegisterOffset_of_exactRow :
    ∀ r ∈ exactRows, descSz r.pattern = 2#2 → isRegisterOffset (descOff r.pattern) = true := by decide

/-- A 4-byte access at a non-register offset is no exact row. -/
theorem mkDescriptor_ne_exactRow (cls : BitVec 2) {off : Offset} (hoff : isRegisterOffset off = false) :
    ∀ r ∈ exactRows, mkDescriptor 2#2 cls off ≠ r.pattern := by
  intro r hr heq
  have hreg := isRegisterOffset_of_exactRow r hr (by rw [← heq, descSz_mkDescriptor])
  rw [← heq, descOff_mkDescriptor, hoff] at hreg
  cases hreg

theorem selectOp_read_of_invalid {off : Offset} (hoff : isRegisterOffset off = false) :
    selectOp (readDescriptor off) = some .rdInvalid := by
  have hne := mkDescriptor_ne_exactRow 0#2 hoff
  rcases selectOp_cases (readDescriptor off) with ⟨r, hr, heq, -⟩ | ⟨-, ⟨-, -, h⟩ | ⟨-, hcls, -⟩ | ⟨hno, -⟩⟩
  · exact absurd heq (hne r hr)
  · exact h
  · simp [readDescriptor] at hcls
  · simp [readDescriptor] at hno

theorem selectOp_write_of_invalid {off : Offset} (hoff : isRegisterOffset off = false) :
    selectOp (writeDescriptor off) = some .wrInvalid := by
  have hne := mkDescriptor_ne_exactRow 1#2 hoff
  rcases selectOp_cases (writeDescriptor off) with ⟨r, hr, heq, -⟩ | ⟨-, ⟨-, hcls, -⟩ | ⟨-, -, h⟩ | ⟨hno, -⟩⟩
  · exact absurd heq (hne r hr)
  · simp [writeDescriptor] at hcls
  · exact h
  · simp [writeDescriptor] at hno

/-- A read of a non-register offset is an invalid access (R62, R83). -/
theorem decode_read_of_invalid {off : Offset} (hoff : isRegisterOffset off = false) :
    decode ⟨readDescriptor off, .nothing⟩ = .ok (.rdInvalid off) := by
  rw [decode_of_selectOp _ _ (selectOp_read_of_invalid hoff), readDescriptor, descOff_mkDescriptor]
  rfl

/-- A write of a non-register offset is an invalid access (R62, R83). -/
theorem decode_write_of_invalid {off : Offset} (v : Word) (hoff : isRegisterOffset off = false) :
    decode ⟨writeDescriptor off, .value v⟩ = .ok (.wrInvalid off v) := by
  rw [decode_of_selectOp _ _ (selectOp_write_of_invalid hoff), writeDescriptor, descOff_mkDescriptor]
  rfl

theorem isRegisterOffset_eq_false_iff (off : Offset) :
    isRegisterOffset off = false ↔
      off ≠ 0x000#10 ∧ off ≠ 0x004#10 ∧ off ≠ 0x008#10 ∧ off ≠ 0x00C#10 ∧ off ≠ 0x010#10 := by
  simp [isRegisterOffset, registerOffsets]

/-- An offset is one of the five register offsets, or selects no register (R61, R62). -/
theorem offset_cases (off : Offset) :
    off = 0x000#10 ∨ off = 0x004#10 ∨ off = 0x008#10 ∨ off = 0x00C#10 ∨ off = 0x010#10 ∨
      isRegisterOffset off = false := by
  rw [isRegisterOffset_eq_false_iff]
  tauto

/-- The dispatcher's default branch of a read (R100). -/
theorem busRead_of_invalid {off : Offset} (hoff : isRegisterOffset off = false) :
    busRead off = .rdInvalid off := by
  obtain ⟨h1, h2, h3, h4, h5⟩ := (isRegisterOffset_eq_false_iff off).mp hoff
  rw [busRead, if_neg h1, if_neg h2, if_neg h3, if_neg h4, if_neg h5]

/-- The dispatcher's default branch of a write (R100). -/
theorem busWrite_of_invalid {off : Offset} (v : Word) (hoff : isRegisterOffset off = false) :
    busWrite off v = .wrInvalid off v := by
  obtain ⟨h1, h2, h3, h4, h5⟩ := (isRegisterOffset_eq_false_iff off).mp hoff
  rw [busWrite, if_neg h1, if_neg h2, if_neg h3, if_neg h4, if_neg h5]

/-- A 4-byte bus read decodes to the dispatcher's choice (R83, R100). -/
theorem decode_read (off : Offset) : decode ⟨readDescriptor off, .nothing⟩ = .ok (busRead off) := by
  rcases offset_cases off with rfl | rfl | rfl | rfl | rfl | hoff
  · exact decode_eq_ok selectOp_rdCr1 rfl
  · exact decode_eq_ok selectOp_rdCr2 rfl
  · exact decode_eq_ok selectOp_rdSr rfl
  · exact decode_eq_ok selectOp_rdDr rfl
  · exact decode_eq_ok selectOp_rdCsctrl rfl
  · rw [decode_read_of_invalid hoff, busRead_of_invalid hoff]

/-- A 4-byte bus write decodes to the dispatcher's choice (R83, R100). -/
theorem decode_write (off : Offset) (v : Word) :
    decode ⟨writeDescriptor off, .value v⟩ = .ok (busWrite off v) := by
  rcases offset_cases off with rfl | rfl | rfl | rfl | rfl | hoff
  · exact decode_eq_ok selectOp_wrCr1 rfl
  · exact decode_eq_ok selectOp_wrCr2 rfl
  · exact decode_eq_ok selectOp_wrSr rfl
  · exact decode_eq_ok selectOp_wrDr rfl
  · exact decode_eq_ok selectOp_wrCsctrl rfl
  · rw [decode_write_of_invalid v hoff, busWrite_of_invalid v hoff]

/-- Settles O8: a bus descriptor decodes to the dispatcher's choice, on a read and on a write. -/
theorem decoderAgreesWithTheDispatcher : Obligations.DecoderAgreesWithTheDispatcher :=
  fun off v => ⟨decode_read off, decode_write off v⟩

/-! ### Decode after encode -/

@[simp] theorem rdInvalid_wellFormed_iff (off : Offset) :
    (Instr.rdInvalid off).WellFormed ↔ isRegisterOffset off = false := by
  simp [Instr.WellFormed, Instr.wellFormed]

@[simp] theorem wrInvalid_wellFormed_iff (off : Offset) (v : Word) :
    (Instr.wrInvalid off v).WellFormed ↔ isRegisterOffset off = false := by
  simp [Instr.WellFormed, Instr.wellFormed]

/-- The encoding of a well-formed operation stands for that operation (R87). -/
theorem decode_encode {i : Instr} (hwf : i.WellFormed) : decode (encode i) = .ok i := by
  cases i with
  | rdCr1 => exact decode_read 0x000#10
  | wrCr1 v => exact decode_write 0x000#10 v
  | rdCr2 => exact decode_read 0x004#10
  | wrCr2 v => exact decode_write 0x004#10 v
  | rdSr => exact decode_read 0x008#10
  | wrSr v => exact decode_write 0x008#10 v
  | rdDr => exact decode_read 0x00C#10
  | wrDr v => exact decode_write 0x00C#10 v
  | rdCsctrl => exact decode_read 0x010#10
  | wrCsctrl v => exact decode_write 0x010#10 v
  | rdInvalid off => exact decode_read_of_invalid ((rdInvalid_wellFormed_iff off).mp hwf)
  | wrInvalid off v => exact decode_write_of_invalid v ((wrInvalid_wellFormed_iff off v).mp hwf)
  | reset => exact decode_eq_ok selectOp_reset rfl
  | save => exact decode_eq_ok selectOp_save rfl
  | restore r => exact decode_eq_ok selectOp_restore rfl

/-- Settles O44: the bus operations are the dispatcher's choice at their offset, the host operations an exact row. -/
theorem decodeOfEncodeIsIdentity : Obligations.DecodeOfEncodeIsIdentity := fun _ hwf => decode_encode hwf

/-! ### Encode after decode -/

section
variable {o : Operand} {i : Instr} {d : Descriptor}

/-- An operation that was given nothing encodes to the descriptor and the operand it came from (R80). -/
theorem encode_of_withNothing {j : Instr} (h : withNothing j o = .ok i) (hwf : j.WellFormed)
    (henc : encode j = ⟨d, .nothing⟩) : i.WellFormed ∧ encode i = ⟨d, o⟩ := by
  obtain ⟨rfl, rfl⟩ := (withNothing_ok _ _ _).mp h
  exact ⟨hwf, henc⟩

/-- The same of an operation that was given a value (R80, R85). -/
theorem encode_of_withValue {f : Word → Instr} (h : withValue f o = .ok i) (hwf : ∀ v, (f v).WellFormed)
    (henc : ∀ v, encode (f v) = ⟨d, .value v⟩) : i.WellFormed ∧ encode i = ⟨d, o⟩ := by
  obtain ⟨v, rfl, rfl⟩ := (withValue_ok _ _ _).mp h
  exact ⟨hwf v, henc v⟩

/-- The same of an operation that was given a snapshot (R80). -/
theorem encode_of_withSnapshot {f : Regs → Instr} (h : withSnapshot f o = .ok i) (hwf : ∀ r, (f r).WellFormed)
    (henc : ∀ r, encode (f r) = ⟨d, .snapshot r⟩) : i.WellFormed ∧ encode i = ⟨d, o⟩ := by
  obtain ⟨r, rfl, rfl⟩ := (withSnapshot_ok _ _ _).mp h
  exact ⟨hwf r, henc r⟩

/-- What an exact row assembles is well-formed, and its encoding is the row's pattern with the operand it was given. -/
theorem encode_of_exactRow {r : MapRow} (hr : r ∈ exactRows) {off : Offset} (h : assemble off r.op o = .ok i) :
    i.WellFormed ∧ encode i = ⟨r.pattern, o⟩ := by
  simp only [exactRows, List.mem_cons, List.not_mem_nil, or_false] at hr
  rcases hr with rfl | rfl | rfl | rfl | rfl | rfl | rfl | rfl | rfl | rfl | rfl | rfl | rfl
  · exact encode_of_withNothing h rfl rfl
  · exact encode_of_withValue h (fun _ => rfl) (fun _ => rfl)
  · exact encode_of_withNothing h rfl rfl
  · exact encode_of_withValue h (fun _ => rfl) (fun _ => rfl)
  · exact encode_of_withNothing h rfl rfl
  · exact encode_of_withValue h (fun _ => rfl) (fun _ => rfl)
  · exact encode_of_withNothing h rfl rfl
  · exact encode_of_withValue h (fun _ => rfl) (fun _ => rfl)
  · exact encode_of_withNothing h rfl rfl
  · exact encode_of_withValue h (fun _ => rfl) (fun _ => rfl)
  · exact encode_of_withNothing h rfl rfl
  · exact encode_of_withNothing h rfl rfl
  · exact encode_of_withSnapshot h (fun _ => rfl) (fun _ => rfl)

end

/-- Every register offset has its read and its write among the exact rows (R61, R87). -/
theorem exactRow_of_registerOffset :
    ∀ off ∈ registerOffsets, (∃ r ∈ exactRows, readDescriptor off = r.pattern) ∧
      ∃ r ∈ exactRows, writeDescriptor off = r.pattern := by decide

/-- A 4-byte bus descriptor that is no exact row is at a non-register offset. -/
theorem isRegisterOffset_eq_false_of_ne_exactRows {d : Descriptor} (hne : ∀ r ∈ exactRows, d ≠ r.pattern)
    (hd : d = readDescriptor (descOff d) ∨ d = writeDescriptor (descOff d)) :
    isRegisterOffset (descOff d) = false := by
  rw [Bool.eq_false_iff, isRegisterOffset, ne_eq, List.contains_iff_mem]
  intro hmem
  obtain ⟨⟨r, hr, hrd⟩, ⟨w, hw, hwr⟩⟩ := exactRow_of_registerOffset _ hmem
  rcases hd with hd | hd
  · exact hne r hr (hd.trans hrd)
  · exact hne w hw (hd.trans hwr)

theorem eq_readDescriptor {d : Descriptor} (hsz : descSz d = 2#2) (hcls : descCls d = 0#2) :
    d = readDescriptor (descOff d) := by
  rw [readDescriptor, ← hsz, ← hcls, mkDescriptor_fields]

theorem eq_writeDescriptor {d : Descriptor} (hsz : descSz d = 2#2) (hcls : descCls d = 1#2) :
    d = writeDescriptor (descOff d) := by
  rw [writeDescriptor, ← hsz, ← hcls, mkDescriptor_fields]

/-- A request that stands for an operation is that operation's encoding, and the operation is well-formed. -/
theorem encode_of_decode {r : Request} {i : Instr} (h : decode r = .ok i) : i.WellFormed ∧ encode i = r := by
  obtain ⟨d, o⟩ := r
  rcases selectOp_cases d with ⟨row, hrow, rfl, hop⟩ | ⟨hne, ⟨hsz, hcls, hop⟩ | ⟨hsz, hcls, hop⟩ | ⟨-, hop⟩⟩
  · rw [decode_of_selectOp _ _ hop] at h
    exact encode_of_exactRow hrow h
  · rw [decode_of_selectOp _ _ hop] at h
    have hd := eq_readDescriptor hsz hcls
    have hwf := isRegisterOffset_eq_false_of_ne_exactRows hne (.inl hd)
    exact encode_of_withNothing h ((rdInvalid_wellFormed_iff _).mpr hwf) (by rw [encode, ← hd])
  · rw [decode_of_selectOp _ _ hop] at h
    have hd := eq_writeDescriptor hsz hcls
    have hwf := isRegisterOffset_eq_false_of_ne_exactRows hne (.inr hd)
    exact encode_of_withValue h (fun v => (wrInvalid_wellFormed_iff _ v).mpr hwf) (fun v => by rw [encode, ← hd])
  · rw [decode_of_no_row _ hop] at h
    cases h

/-- Settles O45, by the row that the request's descriptor selects. -/
theorem encodeOfDecodeIsIdentity : Obligations.EncodeOfDecodeIsIdentity := fun _ _ h => encode_of_decode h

end Sys2Proof.Machine
end

section
/-! SUPPORT. The verdict on every descriptor (R86, R88), descriptors written out, and the assembler's names. -/

namespace Sys2Proof.Machine

/-- The descriptors of the map by their fields: a 4-byte bus access, or one of the three host operations (R81 to R84). -/
def OfTheMap (d : Descriptor) : Prop :=
  ((descCls d = 0#2 ∨ descCls d = 1#2) ∧ descSz d = 2#2) ∨
    (descCls d = 2#2 ∧ descSz d = 0#2 ∧ (descOff d).toNat < 3)

theorem ofTheMap_readDescriptor (off : Offset) : OfTheMap (readDescriptor off) := by
  simp [OfTheMap, readDescriptor]

theorem ofTheMap_writeDescriptor (off : Offset) : OfTheMap (writeDescriptor off) := by
  simp [OfTheMap, writeDescriptor]

theorem ofTheMap_hostDescriptor {selector : Offset} (h : selector.toNat < 3) : OfTheMap (hostDescriptor selector) := by
  simp [OfTheMap, hostDescriptor, h]

/-- Every operation has a descriptor of the map. -/
theorem ofTheMap_encode (i : Instr) : OfTheMap (encode i).desc := by
  cases i with
  | rdCr1 | rdCr2 | rdSr | rdDr | rdCsctrl | rdInvalid _ => exact ofTheMap_readDescriptor _
  | wrCr1 _ | wrCr2 _ | wrSr _ | wrDr _ | wrCsctrl _ | wrInvalid _ _ => exact ofTheMap_writeDescriptor _
  | reset | save | restore _ => exact ofTheMap_hostDescriptor (by decide)

theorem eq_hostDescriptor {d : Descriptor} (hsz : descSz d = 0#2) (hcls : descCls d = 2#2) :
    d = hostDescriptor (descOff d) := by
  rw [hostDescriptor, ← hsz, ← hcls, mkDescriptor_fields]

/-- Each of the three host selectors stands for an operation with some operand (R84). -/
theorem decode_hostDescriptor {selector : Offset} (h : selector.toNat < 3) :
    ∃ o i, decode ⟨hostDescriptor selector, o⟩ = .ok i := by
  have hsel : selector = 0#10 ∨ selector = 1#10 ∨ selector = 2#10 := by bv_omega
  rcases hsel with rfl | rfl | rfl
  · exact ⟨_, _, decode_encode (i := .reset) rfl⟩
  · exact ⟨_, _, decode_encode (i := .save) rfl⟩
  · exact ⟨_, _, decode_encode (i := .restore resetRegs) rfl⟩

/-- Every descriptor of the map stands for an operation with some operand. -/
theorem exists_decode_of_ofTheMap {d : Descriptor} (h : OfTheMap d) : ∃ o i, decode ⟨d, o⟩ = .ok i := by
  rcases h with ⟨hcls | hcls, hsz⟩ | ⟨hcls, hsz, hoff⟩
  · rw [eq_readDescriptor hsz hcls]
    exact ⟨_, _, decode_read _⟩
  · rw [eq_writeDescriptor hsz hcls]
    exact ⟨_, _, decode_write _ 0#32⟩
  · rw [eq_hostDescriptor hsz hcls]
    exact decode_hostDescriptor hoff

/-- A descriptor stands for an operation with some operand exactly where it is one of the map (R86, R88). -/
theorem exists_decode_iff (d : Descriptor) : (∃ o i, decode ⟨d, o⟩ = .ok i) ↔ OfTheMap d := by
  refine ⟨fun ⟨o, i, h⟩ => ?_, exists_decode_of_ofTheMap⟩
  obtain ⟨-, henc⟩ := encode_of_decode h
  have hd := ofTheMap_encode i
  rwa [henc] at hd

/-- Every row of the map assembles an operation from some operand (R80). -/
theorem exists_assemble (off : Offset) (op : Op) : ∃ o i, assemble off op o = .ok i := by
  cases op with
  | wrCr1 | wrCr2 | wrSr | wrDr | wrCsctrl | wrInvalid => exact ⟨.value 0#32, _, rfl⟩
  | restore => exact ⟨.snapshot resetRegs, _, rfl⟩
  | _ => exact ⟨.nothing, _, rfl⟩

/-- Any other descriptor is refused by its reason, whatever the operand (R88). -/
theorem decode_of_not_ofTheMap {d : Descriptor} (h : ¬ OfTheMap d) (o : Operand) :
    decode ⟨d, o⟩ = .error (rejectReason d) := by
  cases hop : selectOp d with
  | none => exact decode_of_no_row _ hop
  | some op =>
    obtain ⟨o', i, hi⟩ := exists_assemble (descOff d) op
    exact absurd ((exists_decode_iff d).mp ⟨o', i, decode_eq_ok hop hi⟩) h

/-- A bus access that is not 4 bytes wide is refused by its width (R64, R88). -/
theorem decode_of_narrow {d : Descriptor} (hcls : descCls d = 0#2 ∨ descCls d = 1#2) (hsz : descSz d ≠ 2#2)
    (o : Operand) : decode ⟨d, o⟩ = .error .accessWidth := by
  rw [decode_of_not_ofTheMap]
  · rcases hcls with hcls | hcls <;> simp [rejectReason, hcls]
  · rcases hcls with hcls | hcls <;> simp [OfTheMap, hcls, hsz]

/-- Settles O46: a descriptor of the map stands for an operation, any other is refused by the reason of its class. -/
theorem everyDescriptorHasOneVerdict : Obligations.EveryDescriptorHasOneVerdict := by
  refine fun d => ⟨exists_decode_iff d, fun o hcls => ?_, fun o hcls hsz => decode_of_narrow hcls hsz o,
    fun o hcls hsz => ?_, fun o hcls hsz hoff => ?_⟩
  · rw [decode_of_not_ofTheMap (by simp [OfTheMap, hcls])]
    simp [rejectReason, hcls]
  · rw [decode_of_not_ofTheMap (by simp [OfTheMap, hcls, hsz])]
    simp [rejectReason, hcls, hsz]
  · rw [decode_of_not_ofTheMap (by simp [OfTheMap, hcls, hsz]; omega)]
    simp [rejectReason, hcls, hsz]

/-! ### Invalid accesses -/

/-- Bits written out: 0x2000 with an offset below is the 4-byte read at that offset (R80, R87). -/
theorem readDescriptor_eq_or (off : Offset) : readDescriptor off = 0x2000#14 ||| off.setWidth 14 := rfl

theorem writeDescriptor_eq_or (off : Offset) : writeDescriptor off = 0x2400#14 ||| off.setWidth 14 := rfl

/-- Settles O7: a non-register offset decodes to the invalid access, and that records one diagnostic. -/
theorem invalidAccessesOnlyRecordADiagnostic : Obligations.InvalidAccessesOnlyRecordADiagnostic := by
  refine fun s off v => ⟨fun hoff => ?_, exec_rdInvalid s off, exec_wrInvalid s off v⟩
  have hinv : isRegisterOffset off = false := by
    rw [isRegisterOffset_eq_false_iff]
    simpa using hoff
  rw [← readDescriptor_eq_or, ← writeDescriptor_eq_or]
  exact ⟨decode_read_of_invalid hinv, decode_write_of_invalid v hinv⟩

/-! ### Descriptors written out, and the assembler's names -/

/-- Settles O43: six descriptors are encodings of well-formed operations, two are not of the map. -/
theorem descriptorsWrittenOutDecode : Obligations.DescriptorsWrittenOutDecode :=
  ⟨decode_encode (i := .rdDr) rfl, decode_encode (i := .wrSr 0x0000000C#32) rfl,
    decode_encode (i := .wrCsctrl 0x00000031#32) rfl, decode_encode (i := .rdInvalid 0x014#10) rfl,
    decode_encode (i := .wrInvalid 0x3FF#10 1#32) rfl, decode_encode (i := .reset) rfl,
    decode_of_not_ofTheMap (by unfold OfTheMap; decide) .nothing,
    decode_of_not_ofTheMap (by unfold OfTheMap; decide) .nothing⟩

/-- Settles O47: a name expands through its offset, and the dispatcher's default branch is the invalid access. -/
theorem namesAndOffsetsNameTheSameOperation : Obligations.NamesAndOffsetsNameTheSameOperation := by
  refine ⟨fun _ => rfl, fun _ _ => rfl, rfl, rfl, fun _ => rfl, fun off v hoff => ⟨?_, ?_⟩⟩
  · rw [expand, targetOffset, busRead_of_invalid hoff]
  · rw [expand, targetOffset, busWrite_of_invalid v hoff]

end Sys2Proof.Machine
end

section
/-! SUPPORT. The state every operation answers, and each of its fields by the operation: what the statements about all
operations are read off from. -/

namespace Sys2Proof.Machine

/-! ### A DR write, branch by branch -/

/-- With RXNE = 0 a DR write is the exchange branch (R143). -/
theorem exec_wrDr_empty (s : State) (v : Word) (h : bit s.regs.sr 0 = false) :
    exec (.wrDr v) s = .next (returnNothing (transferExchange (outboundByte v) s)) := by
  rw [exec_wrDr, transfer_empty (outboundByte v) s h]

/-! ### The state after an operation -/

/-- The next state that `exec` answers. -/
def stateAfter (i : Instr) (s : State) : State :=
  match exec i s with
  | .next t => t
  | .fault _ => s
  | .refused _ => s

/-- Every operation answers its `stateAfter` (R113). -/
theorem exec_eq_stateAfter (i : Instr) (s : State) : exec i s = .next (stateAfter i s) := by
  obtain ⟨t, ht⟩ := exec_completes i s
  rw [stateAfter, ht]

theorem eq_stateAfter {i : Instr} {s t : State} (h : exec i s = .next t) : t = stateAfter i s :=
  Host.Outcome.next.inj (h.symm.trans (exec_eq_stateAfter i s))

theorem stateAfter_reset (s : State) : stateAfter .reset s = returnNothing (loadRegs resetRegs s) := rfl

theorem stateAfter_wrDr (s : State) (v : Word) :
    stateAfter (.wrDr v) s = returnNothing (transfer (outboundByte v) s) := rfl

theorem stateAfter_wrDr_full (s : State) (v : Word) (h : bit s.regs.sr 0 = true) :
    stateAfter (.wrDr v) s = returnNothing (transferOverrun s) :=
  (eq_stateAfter (exec_wrDr_full s v h)).symm

theorem stateAfter_wrDr_empty (s : State) (v : Word) (h : bit s.regs.sr 0 = false) :
    stateAfter (.wrDr v) s = returnNothing (transferExchange (outboundByte v) s) :=
  (eq_stateAfter (exec_wrDr_empty s v h)).symm

/-- SR after an operation. -/
theorem stateAfter_sr (i : Instr) (s : State) : (stateAfter i s).regs.sr = srAfter i s.regs.sr := by
  obtain ⟨t, ht, hsr⟩ := exec_sr i s
  rwa [← eq_stateAfter ht]

/-! ### Every field of the state, by the operation -/

/-- Settles O18: the bits of SR after every operation, at bit 1. -/
theorem txeAfterEveryOperation : Obligations.TxeAfterEveryOperation := by
  intro i s
  refine ⟨_, exec_eq_stateAfter i s, ?_⟩
  rw [stateAfter_sr, bit_srAfter]
  cases i <;> simp

/-- With RXNE = 1 a DR write leaves DR as it was (R142). -/
theorem stateAfter_wrDr_full_dr (s : State) (v : Word) (h : bit s.regs.sr 0 = true) :
    (stateAfter (.wrDr v) s).regs.dr = s.regs.dr := by
  rw [stateAfter_wrDr_full s v h, returnNothing_regs, transferOverrun_regs]

/-- Settles O19: what each operation writes of the registers, by a case on the operation. -/
theorem onlyTheNamedOperationsChangeARegister : Obligations.OnlyTheNamedOperationsChangeARegister := by
  intro i s
  refine ⟨_, exec_eq_stateAfter i s, ?_⟩
  cases i with
  | wrCr1 v => exact ⟨fun _ => .inl ⟨v, rfl⟩, absurd rfl, absurd rfl, absurd rfl⟩
  | wrCr2 v => exact ⟨absurd rfl, fun _ => .inl ⟨v, rfl⟩, absurd rfl, absurd rfl⟩
  | wrCsctrl v => exact ⟨absurd rfl, absurd rfl, absurd rfl, fun _ => .inl ⟨v, rfl⟩⟩
  | wrDr v =>
    obtain ⟨hcr1, hcr2, hcsctrl, -⟩ := transfer_frame (outboundByte v) s
    refine ⟨absurd hcr1, absurd hcr2, fun hdr => .inl ⟨⟨v, rfl⟩, ?_⟩, absurd hcsctrl⟩
    exact Bool.eq_false_iff.mpr fun hfull => hdr (stateAfter_wrDr_full_dr s v hfull)
  | reset =>
    exact ⟨fun _ => .inr (.inl rfl), fun _ => .inr (.inl rfl), fun _ => .inr (.inl rfl), fun _ => .inr (.inl rfl)⟩
  | restore r =>
    exact ⟨fun _ => .inr (.inr ⟨r, rfl⟩), fun _ => .inr (.inr ⟨r, rfl⟩), fun _ => .inr (.inr ⟨r, rfl⟩),
      fun _ => .inr (.inr ⟨r, rfl⟩)⟩
  | _ => exact ⟨absurd rfl, absurd rfl, absurd rfl, absurd rfl⟩

/-- Settles O23: a transfer ends in IRQ_EVAL on either branch, and every other operation runs it or does not. -/
theorem whenTheInterruptLevelMoves : Obligations.WhenTheInterruptLevelMoves := by
  intro i s
  refine ⟨_, exec_eq_stateAfter i s, ?_⟩
  cases i with
  | wrDr v =>
    obtain ⟨-, hcr2, -⟩ := transfer_frame (outboundByte v) s
    rw [← hcr2]
    exact transfer_irq (outboundByte v) s
  | reset => simp [stateAfter_reset]
  | _ => rfl

/-- Settles O28: a transfer moves no level and leaves CSCTRL alone; the other operations by what each writes. -/
theorem whenTheSelectLevelsMove : Obligations.WhenTheSelectLevelsMove := by
  intro i s
  refine ⟨_, exec_eq_stateAfter i s, ?_⟩
  cases i with
  | wrDr v =>
    obtain ⟨-, -, hcsctrl, hlevel, -⟩ := transfer_frame (outboundByte v) s
    exact ⟨hlevel, hcsctrl⟩
  | _ => exact ⟨rfl, rfl⟩

/-- Settles O42: both branches of a transfer, CS_EVAL in the three operations that drive the lines, and the rest, which
leave the levels as they were. -/
theorem theWorldOutsideIsLeftAlone : Obligations.TheWorldOutsideIsLeftAlone := by
  intro i s
  refine ⟨_, exec_eq_stateAfter i s, ?_⟩
  cases i with
  | wrDr v =>
    cases h : bit s.regs.sr 0 with
    | true => simp [stateAfter_wrDr_full s v h]
    | false => simp [stateAfter_wrDr_empty s v h]
  | wrCsctrl _ | reset | restore _ => exact ⟨rfl, rfl, rfl, rfl, rfl⟩
  | _ => exact ⟨rfl, rfl, rfl, rfl, (if_pos rfl).symm⟩

/-! ### Events -/

/-- The events an operation records in a state (R67, R142, R143, R213). -/
def newEvents (i : Instr) (s : State) : List Event :=
  match i with
  | .wrDr v =>
    if bit s.regs.sr 0 then [] else [.exchange (outboundByte v) (peerAnswer s (outboundByte v))]
  | .rdInvalid off => [.diag off .read]
  | .wrInvalid off _ => [.diag off .write]
  | _ => []

/-- No event is taken back, and an operation appends its `newEvents`. -/
theorem stateAfter_events (i : Instr) (s : State) : (stateAfter i s).events = s.events ++ newEvents i s := by
  cases i with
  | wrDr v =>
    cases h : bit s.regs.sr 0 with
    | true => simp [newEvents, stateAfter_wrDr_full s v h, h]
    | false => simp [newEvents, stateAfter_wrDr_empty s v h, h]
  | rdInvalid _ | wrInvalid _ _ => rfl
  | _ => exact (List.append_nil _).symm

theorem newEvents_length_le (i : Instr) (s : State) : (newEvents i s).length ≤ 1 := by
  cases i with
  | wrDr v =>
    rw [newEvents]
    split <;> simp
  | _ => simp [newEvents]

/-- Settles O40: the appended events are `newEvents`, whose inbound byte is the peer's answer. -/
theorem eventsOfEveryOperation : Obligations.EventsOfEveryOperation := by
  intro i s
  cases i with
  | wrDr v =>
    exact ⟨_, peerAnswer s (outboundByte v), exec_eq_stateAfter (.wrDr v) s, stateAfter_events (.wrDr v) s⟩
  | _ => exact ⟨_, 0#8, exec_eq_stateAfter _ s, stateAfter_events _ s⟩

/-! ### Errors -/

/-- Only a DR write with RXNE = 1, and a RESTORE, can raise OVERRUN (R32). -/
theorem wrDr_full_of_overrun_raised {i : Instr} {s : State} (hi : ∀ r, i ≠ .restore r)
    (hbefore : bit s.regs.sr 3 = false) (hafter : bit (stateAfter i s).regs.sr 3 = true) :
    (∃ v, i = .wrDr v) ∧ bit s.regs.sr 0 = true := by
  rw [stateAfter_sr, bit_srAfter] at hafter
  cases i with
  | wrDr v => exact ⟨⟨v, rfl⟩, by simpa [hbefore] using hafter⟩
  | restore r => exact absurd rfl (hi r)
  | _ => simp [hbefore] at hafter

/-- Only a DR read, and a RESTORE, can raise UNDERRUN (R33). -/
theorem rdDr_of_underrun_raised {i : Instr} {s : State} (hi : ∀ r, i ≠ .restore r)
    (hbefore : bit s.regs.sr 2 = false) (hafter : bit (stateAfter i s).regs.sr 2 = true) : i = .rdDr := by
  rw [stateAfter_sr, bit_srAfter] at hafter
  cases i with
  | rdDr => rfl
  | restore r => exact absurd rfl (hi r)
  | _ => simp [hbefore] at hafter

/-- An operation that records a diagnostic is an invalid access, which touches no register (R111, R112). -/
theorem stateAfter_regs_of_diag {i : Instr} {s : State} {off : Offset} {kind : AccessKind}
    (h : newEvents i s = [.diag off kind]) : (stateAfter i s).regs = s.regs := by
  cases i with
  | rdInvalid _ | wrInvalid _ _ => rfl
  | wrDr v =>
    rw [newEvents] at h
    split at h <;> cases h
  | _ => cases h

/-- Settles O21: which operation raised the flag, and what that operation leaves alone. -/
theorem atMostOneErrorPerOperation : Obligations.AtMostOneErrorPerOperation := by
  intro i s t ht hi
  rw [eq_stateAfter ht]
  refine ⟨fun ⟨hbefore, hafter⟩ => ?_, fun ⟨hbefore, hafter⟩ => ?_, fun off kind hev => ?_⟩
  · obtain ⟨⟨v, rfl⟩, hfull⟩ := wrDr_full_of_overrun_raised hi hbefore hafter
    refine ⟨⟨v, rfl⟩, ?_, ?_⟩
    · simp [stateAfter_wrDr_full s v hfull, bit_srAfterOverrun]
    · simp [stateAfter_wrDr_full s v hfull]
  · obtain rfl := rdDr_of_underrun_raised hi hbefore hafter
    refine ⟨rfl, ?_, rfl⟩
    rw [stateAfter_sr, bit_srAfter]
    simp
  · rw [stateAfter_events, List.append_cancel_left_eq] at hev
    exact stateAfter_regs_of_diag hev

/-! ### Repeating an operation -/

/-- Clearing the same flags twice clears them once (R67, R106). -/
theorem srAfterWrite_srAfterWrite (sr v : Word) : srAfterWrite (srAfterWrite sr v) v = srAfterWrite sr v := by
  rw [srAfterWrite, srAfterWrite, BitVec.and_assoc, BitVec.and_self]

theorem csEval_returnNothing (s : State) : csEval (returnNothing s) = returnNothing (csEval s) := rfl

/-- CS_EVAL in an operation that gives nothing back changes nothing when it is repeated (R162). -/
theorem returnNothing_csEval_idem (s : State) :
    returnNothing (csEval (returnNothing (csEval s))) = returnNothing (csEval s) := by
  rw [csEval_returnNothing, csEval_csEval]
  rfl

/-- Settles O39: the state an operation reached already holds what the operation writes. -/
theorem plainOperationsAreIdempotent : Obligations.PlainOperationsAreIdempotent := by
  intro i s hrdDr hwrDr hrdInvalid hwrInvalid
  refine ⟨_, exec_eq_stateAfter i s, ?_⟩
  cases i with
  | rdDr => exact absurd rfl hrdDr
  | wrDr v => exact absurd rfl (hwrDr v)
  | rdInvalid off => exact absurd rfl (hrdInvalid off)
  | wrInvalid off v => exact absurd rfl (hwrInvalid off v)
  | wrSr v =>
    rw [exec_wrSr, stateAfter_sr]
    change Host.Outcome.next (returnNothing (irqEval { s with
      regs := { s.regs with sr := srAfterWrite (srAfterWrite s.regs.sr v) v } })) = _
    rw [srAfterWrite_srAfterWrite]
    rfl
  | wrCsctrl v =>
    exact congrArg Host.Outcome.next (returnNothing_csEval_idem { s with regs := { s.regs with csctrl := v } })
  | reset => exact congrArg Host.Outcome.next (returnNothing_loadRegs_idem resetRegs s)
  | restore r => exact congrArg Host.Outcome.next (returnNothing_loadRegs_idem r s)
  | _ => rfl

end Sys2Proof.Machine
end

section
/-! SUPPORT. The two invariants of the step: the outputs are the derived functions (R162, R203), and without a RESTORE
the registers stay clean (R43). -/

namespace Sys2Proof.Machine

/-! ### The outputs agree with the registers -/

/-- Every operation that writes what an output is derived from ends in that output's evaluation (R162, R203). -/
theorem outputsAgree_stateAfter (i : Instr) {s : State} (h : OutputsAgree s) : OutputsAgree (stateAfter i s) := by
  obtain ⟨hirq, hlevel⟩ := h
  cases i with
  | wrCr2 _ | wrSr _ | rdDr => exact ⟨rfl, hlevel⟩
  | wrDr v =>
    obtain ⟨-, -, hcsctrl, hframe, -⟩ := transfer_frame (outboundByte v) s
    refine ⟨transfer_irq (outboundByte v) s, ?_⟩
    rw [stateAfter_wrDr, returnNothing_csLevel, returnNothing_regs, hframe, hcsctrl, hlevel]
  | wrCsctrl _ => exact ⟨hirq, rfl⟩
  | reset | restore _ => exact ⟨rfl, rfl⟩
  | _ => exact ⟨hirq, hlevel⟩

/-- The outputs agree or not whatever is waiting. -/
theorem outputsAgree_withPending (s : State) (q : List Request) :
    OutputsAgree { s with pending := q } ↔ OutputsAgree s := Iff.rfl

/-- Settles O25: an idle step changes nothing, and any other runs one operation. -/
theorem everyStepKeepsTheOutputsDerived : Obligations.EveryStepKeepsTheOutputsDerived := by
  intro s t hagree hstep
  rcases step_next_cases s t hstep with ⟨-, rfl⟩ | ⟨r, rest, i, -, -, hexec⟩
  · exact hagree
  · rw [eq_stateAfter hexec]
    exact outputsAgree_stateAfter i ((outputsAgree_withPending s rest).mpr hagree)

/-- Settles O26: with no enable and no line set, both functions are the de-asserted levels. -/
theorem outputsAreDerivedAtReset : Obligations.OutputsAreDerivedAtReset :=
  ⟨(irqFn_noEnables resetRegs.sr).symm, csFn_zero.symm⟩

/-- What is observed of an operation's events is what it records (R13). -/
theorem observe_events (i : Instr) (s : State) : (observe s (stateAfter i s)).events = newEvents i s := by
  rw [observe, stateAfter_events, List.drop_left]

/-- Settles O41: the outputs agree afterwards too, and the events and the result are those of the operation. -/
theorem observationOfEveryOperation : Obligations.ObservationOfEveryOperation := by
  intro i s hagree
  obtain ⟨hirq, hlevel⟩ := outputsAgree_stateAfter i hagree
  refine ⟨_, exec_eq_stateAfter i s, hirq, hlevel, ?_, ?_, ?_⟩
  · rw [observe_events]
    exact newEvents_length_le i s
  · rw [observe_events, stateAfter_events]
  · cases i <;> rfl

/-! ### The registers without RESTORE -/

/-- The reset values are clean (R41, R43). -/
theorem noRestoreRegs_resetRegs : NoRestoreRegs resetRegs where
  srHigh k h4 _ := by
    rw [bit_resetSr, decide_eq_false_iff_not]
    omega
  txe := bit_resetSr 1
  drHigh k h8 _ := by
    rw [resetRegs_dr, bit_w1cMask, Bool.or_eq_false_iff, decide_eq_false_iff_not, decide_eq_false_iff_not]
    omega

/-- Settles O36: the reset values are clean and the queue is empty. -/
theorem resetRegistersAreClean : Obligations.ResetRegistersAreClean :=
  ⟨noRestoreRegs_resetRegs, fun _ hr => absurd hr List.not_mem_nil⟩

section
variable {i : Instr} {s : State} (h : NoRestoreRegs s.regs) (hi : ∀ r, i ≠ .restore r)
include h hi

/-- No operation but RESTORE sets BSY or a reserved bit of SR (R29, R34). -/
theorem srHigh_stateAfter (k : Nat) (h4 : 4 ≤ k) (h32 : k < 32) : bit (stateAfter i s).regs.sr k = false := by
  obtain ⟨t, ht, hk⟩ := bsyAndReservedSrBitsAreDead i s k h4 h32
  rw [← eq_stateAfter ht, hk]
  cases i with
  | reset => rfl
  | restore r => exact absurd rfl (hi r)
  | _ => exact h.srHigh k h4 h32

/-- No operation but RESTORE clears TXE (R30). -/
theorem txe_stateAfter : srTxe (stateAfter i s).regs.sr = true := by
  have htxe : bit s.regs.sr 1 = true := h.txe
  obtain ⟨t, ht, h1⟩ := txeAfterEveryOperation i s
  rw [← eq_stateAfter ht, srTxe_eq, h1]
  cases i with
  | reset => rfl
  | restore r => exact absurd rfl (hi r)
  | _ => simp [htxe]

/-- No operation but RESTORE sets a bit of DR[31:8]: an exchange puts a byte there (R143). -/
theorem drHigh_stateAfter (k : Nat) (h8 : 8 ≤ k) (h32 : k < 32) : bit (stateAfter i s).regs.dr k = false := by
  cases i with
  | reset => exact noRestoreRegs_resetRegs.drHigh k h8 h32
  | restore r => exact absurd rfl (hi r)
  | wrDr v =>
    cases hrxne : bit s.regs.sr 0 with
    | true =>
      rw [stateAfter_wrDr_full_dr s v hrxne]
      exact h.drHigh k h8 h32
    | false =>
      rw [stateAfter_wrDr_empty s v hrxne, returnNothing_regs, transferExchange_regs, bit_inboundWord]
      exact BitVec.getLsbD_of_ge _ k h8
  | _ => exact h.drHigh k h8 h32

/-- Every operation but RESTORE keeps the registers clean (R43). -/
theorem noRestoreRegs_stateAfter : NoRestoreRegs (stateAfter i s).regs where
  srHigh := srHigh_stateAfter h hi
  txe := txe_stateAfter h hi
  drHigh := drHigh_stateAfter h hi

end

theorem stateAfter_pending (i : Instr) (s : State) : (stateAfter i s).pending = s.pending := by
  obtain ⟨t, ht, hpending, -⟩ := theWorldOutsideIsLeftAlone i s
  rw [← eq_stateAfter ht, hpending]

/-- Only the descriptor of RESTORE decodes to a RESTORE (R87). -/
theorem ne_restore_of_decode {r : Request} {i : Instr} (hd : decode r = .ok i) (hr : r.desc ≠ restoreDescriptor) :
    ∀ snap, i ≠ .restore snap := by
  rintro snap rfl
  obtain ⟨-, rfl⟩ := encode_of_decode hd
  exact hr rfl

/-- Settles O35: the operation a step runs is no RESTORE, and it adds nothing to the queue. -/
theorem withoutRestoreTheRegistersStayClean : Obligations.WithoutRestoreTheRegistersStayClean := by
  intro s t hregs hwaiting hstep
  rcases step_next_cases s t hstep with ⟨-, rfl⟩ | ⟨r, rest, i, hp, hd, hexec⟩
  · exact ⟨hregs, hwaiting⟩
  · rw [NoRestoreWaiting, hp, List.forall_mem_cons] at hwaiting
    obtain ⟨hr, hrest⟩ := hwaiting
    rw [eq_stateAfter hexec]
    refine ⟨noRestoreRegs_stateAfter hregs (ne_restore_of_decode hd hr), ?_⟩
    rwa [NoRestoreWaiting, stateAfter_pending]

/-! ### TXEIE -/

/-- TXEIE and TXE together assert the interrupt (R202). -/
theorem irqFn_of_txeie_of_txe {cr2 sr : Word} (htxeie : bit cr2 7 = true) (htxe : bit sr 1 = true) :
    irqFn cr2 sr = true := by
  simp [irqFn_eq_three_pairs, htxeie, htxe]

/-- CR2 is written by WR CR2, RESET and RESTORE alone (R42). -/
theorem stateAfter_cr2 {i : Instr} (s : State) (hwr : ∀ v, i ≠ .wrCr2 v) (hreset : i ≠ .reset)
    (hrestore : ∀ r, i ≠ .restore r) : (stateAfter i s).regs.cr2 = s.regs.cr2 := by
  obtain ⟨t, ht, -, hcr2, -⟩ := onlyTheNamedOperationsChangeARegister i s
  rw [← eq_stateAfter ht]
  by_contra hne
  rcases hcr2 hne with ⟨v, hv⟩ | hr | ⟨r, hr⟩
  · exact hwr v hv
  · exact hreset hr
  · exact hrestore r hr

/-- Settles O24: TXE is 1 in every clean state, and the outputs keep agreeing. -/
theorem txeieHoldsTheInterrupt : Obligations.TxeieHoldsTheInterrupt := by
  intro s hagree hclean
  refine ⟨fun v hv => ⟨_, exec_wrCr2 s v, irqFn_of_txeie_of_txe hv hclean.txe⟩, ?_⟩
  intro htxeie i hwr hreset hrestore
  have hcr2 := stateAfter_cr2 s hwr hreset hrestore
  obtain ⟨hirq, -⟩ := outputsAgree_stateAfter i hagree
  refine ⟨_, exec_eq_stateAfter i s, ?_, ?_⟩
  · rw [hirq, hcr2]
    exact irqFn_of_txeie_of_txe htxeie (noRestoreRegs_stateAfter hclean hrestore).txe
  · rw [hcr2, htxeie]

end Sys2Proof.Machine
end

section
/-! SUPPORT. The remaining register operations: CR2, CSCTRL, writing SR back (R249), RESTORE (R181, R182), and RESET
of a block as its owner creates it (R184). -/

namespace Sys2Proof.Machine

/-! ### CR2 and CSCTRL -/

/-- What WR CR2 stores is what RD CR2 gives back, in all 32 bits (R103, R104). -/
theorem rdCr2_after_wrCr2 (s : State) (v : Word) :
    ∃ t u, exec (.wrCr2 v) s = .next t ∧ exec .rdCr2 t = .next u ∧ u.result = some (.word v) :=
  ⟨_, _, exec_wrCr2 s v, exec_rdCr2 _, rfl⟩

/-- What WR CSCTRL stores is what RD CSCTRL gives back, in all 32 bits (R109, R110). -/
theorem rdCsctrl_after_wrCsctrl (s : State) (v : Word) :
    ∃ t u, exec (.wrCsctrl v) s = .next t ∧ exec .rdCsctrl t = .next u ∧ u.result = some (.word v) :=
  ⟨_, _, exec_wrCsctrl s v, exec_rdCsctrl _, rfl⟩

/-- Settles O2: both reads are `returnWord` of the register. -/
theorem readsOfCr2AndCsctrlArePlain : Obligations.ReadsOfCr2AndCsctrlArePlain := by
  refine ⟨decode_read 0x004#10, decode_read 0x010#10, fun s => ?_, fun s => ?_, rdCr2_after_wrCr2,
    rdCsctrl_after_wrCsctrl⟩
  · rw [exec_rdCr2, returnWord_eq]
  · rw [exec_rdCsctrl, returnWord_eq]

/-- Settles O4: WR CR2 stores CR2 and ends in IRQ_EVAL, whose function is the three pairs. -/
theorem writeOfCr2StoresAndReevaluatesIrq : Obligations.WriteOfCr2StoresAndReevaluatesIrq := by
  refine fun s v => ⟨decode_write 0x004#10 v, ?_⟩
  rw [exec_wrCr2, ← irqFn_eq_three_pairs]
  rfl

/-- Settles O29: WR CSCTRL stores CSCTRL and ends in CS_EVAL, read line by line. -/
theorem writeOfCsctrlDrivesTheLines : Obligations.WriteOfCsctrlDrivesTheLines :=
  fun s v => ⟨decode_write 0x010#10 v, csFn v, exec_wrCsctrl s v, csFn_level_bit v⟩

/-! ### Writing SR back -/

/-- Settles O20: each flag falls where it was read as 1, and only bits 3 and 2 can fall (R106). -/
theorem writingBackSrClearsTheErrors : Obligations.WritingBackSrClearsTheErrors := by
  refine fun s => ⟨_, _, s.regs.sr, exec_rdSr s, rfl, exec_wrSr _ s.regs.sr, ?_, ?_, fun k _ h3 h2 => ?_⟩
  · simp [bit_srAfterWrite_ite]
  · simp [bit_srAfterWrite_ite]
  · simp [bit_srAfterWrite_ite, h3, h2]

/-! ### RESTORE and RESET -/

/-- A RESTORE as a record update: the registers, both outputs, and what the peer has seen of the lines (R181). -/
theorem exec_restore_eq (s : State) (r : Regs) :
    exec (.restore r) s = .next { s with
      regs := r, irq := irqFn r.cr2 r.sr, csLevel := csFn r.csctrl, result := none,
      selectLog := selectSeen s (csFn r.csctrl) } := rfl

/-- Settles O33: RESTORE as a record update, its outputs read bit by bit. -/
theorem restoreLoadsAndRederives : Obligations.RestoreLoadsAndRederives :=
  fun s c1 c2 sr dr cs => ⟨decode_encode (i := .restore ⟨c1, c2, sr, dr, cs⟩) rfl, irqFn c2 sr, csFn cs,
    exec_restore_eq s ⟨c1, c2, sr, dr, cs⟩, irqFn_eq_three_pairs c2 sr, csFn_level_bit cs⟩

/-- A RESTORE leaves the values it loads, and outputs that agree with them, whatever the state before (R181). -/
theorem restore_regs_outputsAgree (r : Regs) (u : State) :
    (stateAfter (.restore r) u).regs = r ∧ OutputsAgree (stateAfter (.restore r) u) := ⟨rfl, rfl, rfl⟩

/-- Two states with the same registers whose outputs agree have the same levels. -/
theorem levels_eq_of_outputsAgree {s t : State} (hs : OutputsAgree s) (ht : OutputsAgree t) (h : t.regs = s.regs) :
    t.irq = s.irq ∧ t.csLevel = s.csLevel := by
  obtain ⟨hsirq, hslevel⟩ := hs
  obtain ⟨htirq, htlevel⟩ := ht
  rw [htirq, htlevel, hsirq, hslevel, h]
  exact ⟨rfl, rfl⟩

/-- Settles O34: SAVE gives the registers back, RESTORE loads them, and the levels are functions of the registers. -/
theorem restoreOfASaveRoundTrips : Obligations.RestoreOfASaveRoundTrips := by
  refine fun s => ⟨_, s.regs, exec_save s, rfl, fun u => ?_⟩
  obtain ⟨hregs, hagree⟩ := restore_regs_outputsAgree s.regs u
  exact ⟨_, exec_eq_stateAfter (.restore s.regs) u, hregs, hagree,
    fun hs => levels_eq_of_outputsAgree hs hagree hregs⟩

/-- Settles O31: from all registers zero RESET leaves the reset state, but for the change of levels the peer sees. -/
theorem resetOfACreatedInstanceIsTheResetState : Obligations.ResetOfACreatedInstanceIsTheResetState := by
  intro irq levels
  rw [exec_reset, loadRegs_resetRegs]
  by_cases h : levels = 0xF#4
  · subst h
    rfl
  · have hseen : selectSeen (State.created irq levels) 0xF#4 = [⟨0, 0xF#4⟩] :=
      selectSeen_change (State.created irq levels) 0xF#4 (Ne.symm h)
    rw [hseen, if_neg h]
    rfl

/-! ### CR2 without an effect -/

/-- `s` with another value in CR2. -/
def withCr2 (c : Word) (s : State) : State := { s with regs := { s.regs with cr2 := c } }

section
variable {c : Word} {s : State} (h : ∀ k, 5 ≤ k → k ≤ 7 → bit c k = bit s.regs.cr2 k)
include h

/-- IRQ_EVAL carries the unread bits of CR2 along (R26, R202). -/
theorem irqEval_withCr2 : irqEval (withCr2 c s) = withCr2 c (irqEval s) := by
  have hirq : irqFn c s.regs.sr = irqFn s.regs.cr2 s.regs.sr := irqFn_congr_fields _ _ _ _ h fun _ _ => rfl
  simp only [irqEval, withCr2, hirq]

/-- So does every IRQ_EVAL that follows a change of another register. -/
theorem irqEval_withCr2_sr (sr : Word) :
    irqEval (withCr2 c { s with regs := { s.regs with sr := sr } }) =
      withCr2 c (irqEval { s with regs := { s.regs with sr := sr } }) := irqEval_withCr2 h

theorem transfer_withCr2 (bOut : Byte) : transfer bOut (withCr2 c s) = withCr2 c (transfer bOut s) := by
  cases hrxne : bit s.regs.sr 0 with
  | true =>
    rw [transfer_full bOut s hrxne, transfer_full bOut (withCr2 c s) hrxne]
    exact irqEval_withCr2_sr h (srAfterOverrun s.regs.sr)
  | false =>
    rw [transfer_empty bOut s hrxne, transfer_empty bOut (withCr2 c s) hrxne]
    exact irqEval_withCr2 (s := { exchanged bOut s with
      regs := { s.regs with dr := inboundWord (peerAnswer s bOut), sr := srAfterExchange s.regs.sr } }) h

/-- WR CR2, RESET and RESTORE load CR2 afresh, and every other operation that does not give CR2 back carries its unread
bits along (R26). -/
theorem exec_withCr2 {i : Instr} (hread : i ≠ .rdCr2) (hsave : i ≠ .save) :
    ∃ t c', exec i s = .next t ∧ exec i (withCr2 c s) = .next (withCr2 c' t) := by
  cases i with
  | rdCr2 => exact absurd rfl hread
  | save => exact absurd rfl hsave
  | wrCr2 v => exact ⟨_, v, exec_wrCr2 s v, rfl⟩
  | reset => exact ⟨_, resetRegs.cr2, exec_reset s, rfl⟩
  | restore r => exact ⟨_, r.cr2, exec_restore s r, rfl⟩
  | wrSr v => exact ⟨_, c, exec_wrSr s v, congrArg (Host.Outcome.next ∘ returnNothing) (irqEval_withCr2_sr h _)⟩
  | rdDr =>
    exact ⟨_, c, exec_rdDr s, congrArg (Host.Outcome.next ∘ returnWord s.regs.dr) (irqEval_withCr2_sr h _)⟩
  | wrDr v =>
    exact ⟨_, c, exec_wrDr s v, congrArg (Host.Outcome.next ∘ returnNothing) (transfer_withCr2 h _)⟩
  | _ => exact ⟨_, c, rfl, rfl⟩

end

/-- Settles O38: IRQ_FN reads three bits of CR2 and CS_EVAL none. -/
theorem ssoeAndReservedCr2BitsHaveNoEffect : Obligations.SsoeAndReservedCr2BitsHaveNoEffect := by
  refine ⟨fun i s c hread hsave h => exec_withCr2 h hread hsave, fun s v w h => ⟨_, exec_wrCr2 s v, ?_⟩,
    fun s t h => ?_⟩
  · exact congrArg (Host.Outcome.next ∘ returnNothing)
      (irqEval_withCr2 (c := w) (s := withCr2 v s) fun k h5 h7 => (h k h5 h7).symm)
  · rw [csEval_csLevel, csEval_csLevel, h]

end Sys2Proof.Machine
end

section
/-! SUPPORT. The exchange branch of the Transfer Engine (R143, R145, R148) and the pseudo-instructions (R93). -/

namespace Sys2Proof.Machine

/-! ### One exchange -/

/-- The inbound byte zero-extended, bit by bit (R143). -/
theorem bit_inboundWord_ite (b : Byte) (k : Nat) :
    bit (inboundWord b) k = if k < 8 then b.getLsbD k else false := by
  rw [bit_inboundWord]
  split
  · rfl
  · exact BitVec.getLsbD_of_ge b k (by omega)

/-- Settles O11: the exchange branch with the peer's answer as the inbound byte. -/
theorem writeOfDrWhileEmptyExchangesOneByte : Obligations.WriteOfDrWhileEmptyExchangesOneByte := by
  intro s v hempty
  refine ⟨decode_write 0x00C#10 v, peerAnswer s (outboundByte v), inboundWord (peerAnswer s (outboundByte v)),
    srAfterExchange s.regs.sr, fun b rest => peerAnswer_scripted s _ b rest, ?_,
    fun k _ => bit_inboundWord_ite _ k, fun k _ => bit_srAfterExchange s.regs.sr k⟩
  rw [exec_wrDr_empty s v hempty]
  rfl

/-- Settles O12: with the byte as the peer's script, the byte is the answer. -/
theorem everyAnswerOfThePeerIsAdmitted : Obligations.EveryAnswerOfThePeerIsAdmitted :=
  fun s v b hempty => ⟨[b], _, exec_wrDr_empty { s with peerScript := [b] } v hempty, rfl, rfl⟩

/-- What a DR write with RXNE = 0 leaves where the peer's answer is scripted (R143). -/
theorem wrDr_scripted {s : State} {b : Byte} {rest : List Byte} (v : Word) (hempty : bit s.regs.sr 0 = false)
    (hscript : s.peerScript = b :: rest) :
    (stateAfter (.wrDr v) s).regs.dr = inboundWord b ∧ bit (stateAfter (.wrDr v) s).regs.sr 0 = true ∧
      bit (stateAfter (.wrDr v) s).regs.sr 1 = true ∧
      (stateAfter (.wrDr v) s).events = s.events ++ [.exchange (outboundByte v) b] := by
  rw [stateAfter_wrDr_empty s v hempty]
  simp [peerAnswer_scripted s (outboundByte v) b rest hscript, bit_srAfterExchange]

/-- Settles O13: what the DR write leaves rests on RXNE and the peer's answer alone. -/
theorem nothingGatesATransferButRxne : Obligations.NothingGatesATransferButRxne := by
  intro s s' t t' v b rest rest' hempty hempty' hscript hscript' ht ht'
  obtain ⟨hdr, hrxne, htxe, hevents⟩ := wrDr_scripted v hempty hscript
  obtain ⟨hdr', hrxne', htxe', hevents'⟩ := wrDr_scripted v hempty' hscript'
  rw [eq_stateAfter ht, eq_stateAfter ht']
  refine ⟨hdr.trans hdr'.symm, hrxne.trans hrxne'.symm, htxe.trans htxe'.symm, ?_⟩
  rw [hevents, hevents', List.drop_left, List.drop_left]

/-! ### Runs of operations -/

theorem execAll_cons (i : Instr) (is : List Instr) (s : State) :
    execAll (i :: is) s = execAll is (stateAfter i s) := by
  rw [execAll, exec_eq_stateAfter]

theorem execAll_append {is : List Instr} {s t : State} (h : execAll is s = .next t) (js : List Instr) :
    execAll (is ++ js) s = execAll js t := by
  induction is generalizing s with
  | nil =>
    cases h
    rfl
  | cons i is ih =>
    rw [execAll_cons] at h
    rw [List.cons_append, execAll_cons, ih h]

/-- One operation alone is its meaning. -/
theorem execAll_singleton (i : Instr) (s : State) : execAll [i] s = .next (stateAfter i s) := execAll_cons i [] s

/-! ### XFER -/

/-- XFER with RXNE = 0: the DR write exchanges one byte and the DR read gives it back and empties the buffer, so that
neither error condition arises (R148). -/
theorem xfer_of_empty (s : State) (v : Word) (hempty : bit s.regs.sr 0 = false) :
    ∃ t bIn, execAll (expand (.xfer v)) s = .next t ∧
      t.events = s.events ++ [.exchange (outboundByte v) bIn] ∧ t.result = some (.word (inboundWord bIn)) ∧
      bit t.regs.sr 0 = false ∧ bit t.regs.sr 3 = bit s.regs.sr 3 ∧ bit t.regs.sr 2 = bit s.regs.sr 2 := by
  refine ⟨stateAfter .rdDr (stateAfter (.wrDr v) s), peerAnswer s (outboundByte v), ?_, ?_, ?_, ?_, ?_, ?_⟩
  · rw [expand, execAll_cons, execAll_singleton]
  · simp [stateAfter_events, newEvents, hempty]
  · rw [stateAfter_wrDr_empty s v hempty]
    rfl
  all_goals
    rw [stateAfter_sr, stateAfter_sr, bit_srAfter]
    simp [bit_srAfter, hempty]

/-- Settles O50: one XFER, in the words of the status register's fields. -/
theorem xferGivesBackThePeersByte : Obligations.XferGivesBackThePeersByte :=
  fun s v hempty => xfer_of_empty s v hempty

/-- Settles O14, by induction on the bytes: each XFER leaves the buffer empty for the next. -/
theorem alternatingTransfersLoseNothing : Obligations.AlternatingTransfersLoseNothing := by
  intro bytes
  induction bytes with
  | nil => exact fun s hempty => ⟨s, rfl, hempty, rfl, rfl, (List.append_nil _).symm⟩
  | cons v bytes ih =>
    intro s hempty
    obtain ⟨u, bIn, hxfer, hevents, -, hempty', hoverrun, hunderrun⟩ := xfer_of_empty s v hempty
    obtain ⟨t, hrun, hrxne, hoverrun', hunderrun', hsent⟩ := ih u hempty'
    refine ⟨t, ?_, hrxne, hoverrun'.trans hoverrun, hunderrun'.trans hunderrun, ?_⟩
    · rw [List.flatMap_cons, execAll_append hxfer, hrun]
    · rw [hsent, hevents, sentBytes_append, List.append_assoc]
      rfl

/-! ### The other pseudo-instructions -/

/-- CSSEL's value requests and enables exactly the lines of its mask (R93, R160). -/
theorem csFn_cssel : ∀ m : BitVec 4, csFn ((m.setWidth 32 <<< 4) ||| m.setWidth 32) = ~~~m := by decide

/-- Settles O48: CSSEL and CSOFF are one WR CSCTRL each. -/
theorem csselAssertsExactlyItsMask : Obligations.CsselAssertsExactlyItsMask :=
  fun s => ⟨fun m => ⟨_, execAll_singleton _ s, csFn_cssel m⟩, _, execAll_singleton _ s, csFn_zero⟩

/-- One WR SR as a run: which bits of SR stay (R106). -/
theorem execAll_wrSr (v : Word) (s : State) :
    ∃ t, execAll [.wrSr v] s = .next t ∧
      ∀ k, bit t.regs.sr k = (bit s.regs.sr k && !(bit v k && (decide (k = 2) || decide (k = 3)))) := by
  refine ⟨_, execAll_singleton _ s, fun k => ?_⟩
  rw [stateAfter_sr, bit_srAfter]

/-- A WR SR of one flag's bit clears that flag alone (R106). -/
theorem execAll_wrSr_flag (j : Nat) (hj : j = 2 ∨ j = 3) (s : State) :
    ∃ t, execAll [.wrSr (setBit 0#32 j)] s = .next t ∧
      ∀ k, k < 32 → bit t.regs.sr k = (bit s.regs.sr k && !decide (k = j)) := by
  obtain ⟨t, ht, hbits⟩ := execAll_wrSr (setBit 0#32 j) s
  refine ⟨t, ht, fun k hk => ?_⟩
  have hzero : bit 0#32 k = false := by simp [bit]
  rw [hbits, bit_setBit _ _ _ hk, hzero, Bool.false_or]
  by_cases h : k = j
  · rcases hj with rfl | rfl <;> simp [h]
  · simp [h]

/-- A WR SR of both flags' bits clears both (R106). -/
theorem execAll_wrSr_flags (s : State) :
    ∃ t, execAll [.wrSr 0x0000000C#32] s = .next t ∧
      ∀ k, k < 32 → bit t.regs.sr k = (bit s.regs.sr k && !(decide (k = 3) || decide (k = 2))) := by
  obtain ⟨t, ht, hbits⟩ := execAll_wrSr 0x0000000C#32 s
  refine ⟨t, ht, fun k _ => ?_⟩
  rw [hbits, bit_w1cMask, Bool.and_self, Bool.or_comm]

/-- Settles O49: each is one WR SR of the mask it names, or one RD SR. -/
theorem clearingPseudosClearWhatTheyName : Obligations.ClearingPseudosClearWhatTheyName :=
  fun s => ⟨execAll_wrSr_flags s, execAll_wrSr_flag 3 (.inr rfl) s, execAll_wrSr_flag 2 (.inl rfl) s,
    execAll_singleton .rdSr s⟩

end Sys2Proof.Machine
end

section
/-! SUPPORT. Steps and runs: a queue of encodings runs as the operations it encodes (R12, R15, R69), and a queue that
decodes never stops the machine (R113, R200). -/

namespace Sys2Proof.Machine

/-! ### One step -/

/-- The operation of a table word is what its request decodes to. -/
theorem decode_tableRequest {nbits w : Nat} {i : Instr} (h : decodeTableWord nbits w = some i) :
    decode (tableRequest nbits w) = .ok i := by
  unfold decodeTableWord at h
  cases hd : decode (tableRequest nbits w) with
  | ok j =>
    rw [hd] at h
    rw [Option.some.inj h]
  | error why =>
    rw [hd] at h
    cases h

/-- Waiting behind nothing is waiting first. -/
theorem append_pending_of_idle {s : State} (hidle : s.pending = []) (r : Request) :
    { s with pending := s.pending ++ [r] } = pushRequest r s := by
  rw [pushRequest, hidle, List.nil_append]

/-- An operation issued to a block runs at the next step, on the state it was issued in. -/
theorem step_pushRequest {r : Request} {i : Instr} (s : State) (h : decode r = .ok i) :
    step (pushRequest r s) = exec i s := step_decoded (pushRequest r s) r s.pending i rfl h

/-- Settles O51, from the two outcomes of a step that finds a request waiting. -/
theorem stepRunsTheDecodedOperation : Obligations.StepRunsTheDecodedOperation :=
  ⟨step_decoded, step_rejected, fun s _ _ _ h => step_pushRequest s (decode_tableRequest h)⟩

/-- Settles O52. -/
theorem idleBlockDoesNotAdvance : Obligations.IdleBlockDoesNotAdvance := step_idle

/-! ### The queue is no input of an operation -/

/-- No operation reads what is waiting, and none writes it (R69; log entry 1). -/
theorem stateAfter_withPending (i : Instr) (s : State) (q : List Request) :
    stateAfter i { s with pending := q } = { stateAfter i s with pending := q } := by
  cases i with
  | wrDr v =>
    cases h : bit s.regs.sr 0 with
    | true => rw [stateAfter_wrDr_full s v h, stateAfter_wrDr_full { s with pending := q } v h]; rfl
    | false => rw [stateAfter_wrDr_empty s v h, stateAfter_wrDr_empty { s with pending := q } v h]; rfl
  | _ => rfl

/-- The queue before an operation makes no difference to anything but the queue after it. -/
theorem withPending_stateAfter (i : Instr) (s : State) (q q' : List Request) :
    { stateAfter i { s with pending := q } with pending := q' } = stateAfter i { s with pending := q' } := by
  rw [stateAfter_withPending i s q, stateAfter_withPending i s q']

/-! ### Runs -/

/-- A run over the encodings of well-formed operations is their meanings in order, and keeps the outputs derived. -/
theorem run_encoded (prog : List Instr) (s : State) (hwf : ∀ i ∈ prog, i.WellFormed)
    (hp : s.pending = prog.map encode) :
    ∃ t, Sys2Proof.core.run prog.length s = .next t ∧ execAll prog { s with pending := [] } = .next t ∧
      t.pending = [] ∧ (OutputsAgree s → OutputsAgree t) := by
  induction prog generalizing s with
  | nil =>
    refine ⟨s, rfl, ?_, hp, id⟩
    rw [execAll, ← show s.pending = [] from hp]
  | cons i is ih =>
    obtain ⟨hi, his⟩ := List.forall_mem_cons.mp hwf
    have hstep : step s = .next (stateAfter i { s with pending := is.map encode }) :=
      (step_decoded s _ _ i hp (decode_encode hi)).trans (exec_eq_stateAfter i _)
    obtain ⟨t, hrun, hmeaning, hempty, hagree⟩ :=
      ih (stateAfter i { s with pending := is.map encode }) his (stateAfter_pending i _)
    refine ⟨t, ?_, ?_, hempty, fun hs => hagree (outputsAgree_stateAfter i hs)⟩
    · rw [List.length_cons, run_of_step _ _ _ hstep, hrun]
    · rw [execAll_cons, ← hmeaning, withPending_stateAfter]

/-- Settles O53. -/
theorem runOfAProgramIsItsMeanings : Obligations.RunOfAProgramIsItsMeanings := run_encoded

/-- Where every waiting request decodes, a step answers a state in which the same holds. -/
theorem step_of_allWaitingDecode {s : State} (h : AllWaitingDecode s) :
    ∃ t, step s = .next t ∧ AllWaitingDecode t := by
  cases hp : s.pending with
  | nil => exact ⟨s, step_idle s hp, h⟩
  | cons r rest =>
    rw [AllWaitingDecode, hp, List.forall_mem_cons] at h
    obtain ⟨⟨i, hi⟩, hrest⟩ := h
    refine ⟨stateAfter i { s with pending := rest }, ?_, ?_⟩
    · rw [step_decoded s r rest i hp hi, exec_eq_stateAfter]
    · rwa [AllWaitingDecode, stateAfter_pending]

/-- Settles O54, by induction on the number of steps. -/
theorem decodableQueuesRunSafely : Obligations.DecodableQueuesRunSafely := by
  intro s h k
  induction k generalizing s with
  | zero => exact ⟨s, rfl⟩
  | succ k ih =>
    obtain ⟨t, hstep, ht⟩ := step_of_allWaitingDecode h
    obtain ⟨u, hu⟩ := ih t ht
    exact ⟨u, (run_of_step k s t hstep).trans hu⟩

/-! ### Assembled programs -/

/-- What the dispatcher chooses is well-formed: it is what a request decodes to (R100). -/
theorem busRead_wellFormed (off : Offset) : (busRead off).WellFormed := (encode_of_decode (decode_read off)).1

theorem busWrite_wellFormed (off : Offset) (v : Word) : (busWrite off v).WellFormed :=
  (encode_of_decode (decode_write off v)).1

/-- Every line expands to well-formed operations (R92, R93). -/
theorem wellFormed_of_mem_expand (l : Stmt) : ∀ i ∈ expand l, i.WellFormed := by
  cases l with
  | rd t => exact List.forall_mem_singleton.mpr (busRead_wellFormed _)
  | wr t v => exact List.forall_mem_singleton.mpr (busWrite_wellFormed _ v)
  | xfer b => exact List.forall_mem_cons.mpr ⟨rfl, List.forall_mem_singleton.mpr rfl⟩
  | _ => exact List.forall_mem_singleton.mpr rfl

theorem wellFormed_of_mem_flatMap_expand (prog : List Stmt) : ∀ i ∈ prog.flatMap expand, i.WellFormed := by
  intro i hi
  obtain ⟨l, -, hl⟩ := List.mem_flatMap.mp hi
  exact wellFormed_of_mem_expand l i hl

/-- A program assembles to the encodings of its expansion. -/
theorem assembleProgram_eq (prog : List Stmt) : assembleProgram prog = (prog.flatMap expand).map encode := by
  induction prog with
  | nil => rfl
  | cons l ls ih => rw [assembleProgram, ih, List.flatMap_cons, List.map_append]

/-- A queue of encodings of well-formed operations decodes. -/
theorem allWaitingDecode_of_encodings {prog : List Instr} {s : State} (hwf : ∀ i ∈ prog, i.WellFormed)
    (hp : s.pending = prog.map encode) : AllWaitingDecode s := by
  rw [AllWaitingDecode, hp, List.forall_mem_map]
  exact fun i hi => ⟨i, decode_encode (hwf i hi)⟩

/-- Settles O55: the requests are the encodings of the expansion, whose operations are well-formed. -/
theorem assembledProgramsRunAsTheyExpand : Obligations.AssembledProgramsRunAsTheyExpand := by
  intro prog s hp
  rw [assembleProgram_eq] at hp ⊢
  have hwf := wellFormed_of_mem_flatMap_expand prog
  obtain ⟨t, hrun, hmeaning, -⟩ := run_encoded (prog.flatMap expand) s hwf hp
  refine ⟨allWaitingDecode_of_encodings hwf hp, t, ?_, hmeaning⟩
  rw [List.length_map, hrun]

end Sys2Proof.Machine
end

section
/-! SUPPORT. The bus side: byte lanes (R65), the window (R60, R63) and accesses as operations (R10, R64, R72). -/

namespace Sys2Proof.Machine

/-! ### Byte lanes -/

/-- A byte at significance `j` fills the bits of that significance and no others. -/
theorem getLsbD_shiftedByte (b : Byte) (j : Nat) (k : Fin 4) (i : Nat) (hi : i < 8) :
    (b.setWidth 32 <<< (8 * j) : Word).getLsbD (8 * k.val + i) = (decide (k.val = j) && b.getLsbD i) := by
  have h32 : 8 * k.val + i < 32 := by omega
  rw [BitVec.getLsbD_shiftLeft, BitVec.getLsbD_setWidth, decide_eq_true h32, Bool.true_and]
  rcases Nat.lt_trichotomy k.val j with hlt | heq | hgt
  · have hbelow : 8 * k.val + i < 8 * j := by omega
    have hne : k.val ≠ j := by omega
    simp [hbelow, hne]
  · subst heq
    have h : i < 32 := by omega
    simp [h]
  · have hne : k.val ≠ j := by omega
    rw [BitVec.getLsbD_of_ge b _ (by omega)]
    simp [hne]

/-- The value on the lanes as four bytes by significance (R65). -/
theorem wordOfLanes_eq (lanes : Vector Byte 4) :
    wordOfLanes lanes =
      (lanes[Config.busLane.symm 3].setWidth 32 <<< (8 * 3)) |||
        (lanes[Config.busLane.symm 2].setWidth 32 <<< (8 * 2)) |||
        (lanes[Config.busLane.symm 1].setWidth 32 <<< (8 * 1)) |||
        (lanes[Config.busLane.symm 0].setWidth 32 <<< (8 * 0)) := by
  rw [wordOfLanes, Nat.mul_zero, BitVec.shiftLeft_zero]

/-- Byte `k` of the value on the lanes is on the lane that carries significance `k` (R65). -/
theorem byteAt_wordOfLanes (lanes : Vector Byte 4) (k : Fin 4) :
    byteAt (wordOfLanes lanes) k = lanes[Config.busLane.symm k] := by
  apply BitVec.eq_of_getLsbD_eq
  intro i hi
  rw [byteAt, BitVec.getLsbD_extractLsb', decide_eq_true hi, Bool.true_and, wordOfLanes_eq]
  simp only [BitVec.getLsbD_or, getLsbD_shiftedByte _ _ k i hi]
  fin_cases k <;> simp

/-- A word is its four bytes. -/
theorem word_ext_bytes {v w : Word} (h : ∀ k, byteAt v k = byteAt w k) : v = w := by
  apply BitVec.eq_of_getLsbD_eq
  intro i hi
  have hbyte := congrArg (·.getLsbD (i % 8)) (h ⟨i / 8, by omega⟩)
  have hmod : i % 8 < 8 := Nat.mod_lt i (by decide)
  simpa [byteAt, hmod, Nat.div_add_mod] using hbyte

theorem getElem_lanesOfWord (v : Word) (lane : Fin 4) : (lanesOfWord v)[lane] = byteAt v (Config.busLane lane) := by
  simp [lanesOfWord]

theorem wordOfLanes_lanesOfWord (v : Word) : wordOfLanes (lanesOfWord v) = v := by
  refine word_ext_bytes fun k => ?_
  rw [byteAt_wordOfLanes, getElem_lanesOfWord, Equiv.apply_symm_apply]

theorem lanesOfWord_wordOfLanes (lanes : Vector Byte 4) : lanesOfWord (wordOfLanes lanes) = lanes := by
  refine Vector.ext fun k hk => ?_
  have h := getElem_lanesOfWord (wordOfLanes lanes) ⟨k, hk⟩
  simpa [byteAt_wordOfLanes] using h

/-- Settles O58: each way, byte by byte. -/
theorem byteLanesRoundTrip : Obligations.ByteLanesRoundTrip := ⟨wordOfLanes_lanesOfWord, lanesOfWord_wordOfLanes⟩

/-! ### Accesses -/

theorem busRequest_memRead (k : Nat) (off : Offset) :
    busRequest k (memRead k off) = some ⟨readDescriptor off, .nothing⟩ := busRequest_at k off _ rfl

/-- A memory write is the write descriptor with the value its lanes carry (R10, R65). -/
theorem requestAt_memWrite (k : Nat) (off off' : Offset) (v : Word) :
    requestAt off (memWrite k off' v) = ⟨writeDescriptor off, .value (wordOfLanes (lanesOfWord v))⟩ := rfl

theorem busRequest_memWrite (k : Nat) (off : Offset) (v : Word) :
    busRequest k (memWrite k off v) = some ⟨writeDescriptor off, .value v⟩ := by
  rw [busRequest_at k off _ rfl, requestAt_memWrite, wordOfLanes_lanesOfWord]

/-- An access issued to an idle block runs at the next step, on the state it was issued in (R69). -/
theorem step_busIssue {s : State} {a : BusAccess} {r : Request} {i : Instr} (hidle : s.pending = [])
    (hr : busRequest s.instanceId a = some r) (hd : decode r = .ok i) : step (busIssue a s) = exec i s := by
  rw [busIssue, hr, ← step_pushRequest s hd, ← append_pending_of_idle hidle r]

/-- Settles O56: the access is the descriptor at its offset, which decodes to the dispatcher's choice. -/
theorem memoryAccessesRunAtTheNextStep : Obligations.MemoryAccessesRunAtTheNextStep :=
  fun s off v hidle => ⟨step_busIssue hidle (busRequest_memRead s.instanceId off) (decode_read off),
    step_busIssue hidle (busRequest_memWrite s.instanceId off v) (decode_write off v)⟩

/-- The request of an access has the class of a read or of a write, and the access's width (R80, R81). -/
theorem requestAt_desc (off : Offset) (a : BusAccess) :
    (descCls (requestAt off a).desc = 0#2 ∨ descCls (requestAt off a).desc = 1#2) ∧
      descSz (requestAt off a).desc = widthSz a.width := by
  unfold requestAt
  cases a.kind <;> simp

theorem widthSz_ne_of_ne_bytes4 {w : AccessWidth} (h : w ≠ .bytes4) : widthSz w ≠ 2#2 := by
  cases w with
  | bytes4 => exact absurd rfl h
  | _ => decide

/-- An access that reaches the block is the request at some window offset. -/
theorem exists_requestAt_of_busRequest {k : Nat} {a : BusAccess} {r : Request} (h : busRequest k a = some r) :
    ∃ off, r = requestAt off a := by
  unfold busRequest at h
  cases hoff : windowOffset k a.addr with
  | none => simp [hoff] at h
  | some off =>
    rw [hoff] at h
    exact ⟨off, (Option.some.inj h).symm⟩

/-- An access of another width is refused (R64). -/
theorem decode_of_width_ne {k : Nat} {a : BusAccess} {r : Request} (h : busRequest k a = some r)
    (hw : a.width ≠ .bytes4) : decode r = .error .accessWidth := by
  obtain ⟨off, rfl⟩ := exists_requestAt_of_busRequest h
  obtain ⟨hcls, hsz⟩ := requestAt_desc off a
  exact decode_of_narrow hcls (hsz ▸ widthSz_ne_of_ne_bytes4 hw) _

theorem busRequest_outside {k : Nat} {a : BusAccess}
    (h : a.addr < Config.spiBase k ∨ Config.spiBase k + 0x400 ≤ a.addr) : busRequest k a = none := by
  rw [busRequest, windowOffset_outside k a.addr h]

theorem busRequest_fetch (k : Nat) (off : Offset) :
    busRequest k { memRead k off with kind := .fetch } = busRequest k (memRead k off) := by
  rw [busRequest_memRead, busRequest_at k off _ rfl]
  rfl

/-- Settles O57: accesses at window addresses by their descriptor, the others by width and by address. -/
theorem busAccessesReachTheWindow : Obligations.BusAccessesReachTheWindow :=
  ⟨fun k off => ⟨_, busRequest_memRead k off, decode_read off⟩,
    fun k off v => ⟨_, busRequest_memWrite k off v, decode_write off v⟩,
    busRequest_fetch, fun _ _ _ _ => rfl, fun _ _ _ => decode_of_width_ne, fun _ _ => busRequest_outside⟩

end Sys2Proof.Machine
end

section
/-! SUPPORT. The platform's saved bytes (R182, R183). -/

namespace Sys2Proof.Machine

/-- Issuing the saved bytes to an idle block waits with the RESTORE of the values they stand for (R183). -/
theorem restoreIssue_bytesOf {enc : SnapshotEncoding} (henc : enc.Lossless) (snap : Regs) {u : State}
    (hidle : u.pending = []) :
    restoreIssue enc (enc.bytesOf snap) u = pushRequest (encode (.restore snap)) u := by
  rw [restoreIssue, restoreRequests_bytesOf enc henc, append_pending_of_idle hidle]

/-- Settles O60: SAVE's bytes lead to the RESTORE of the saved registers, and unreadable bytes to what the encoding
names. -/
theorem savedBytesRestoreTheRegisters : Obligations.SavedBytesRestoreTheRegisters := by
  refine fun enc => ⟨fun henc s => ?_, fun bytes u hbytes => ?_⟩
  · refine ⟨_, enc.bytesOf s.regs, exec_save s, savedBytes_snapshot enc _ s.regs rfl, fun u hidle => ?_⟩
    obtain ⟨hregs, hagree⟩ := restore_regs_outputsAgree s.regs u
    refine ⟨stateAfter (.restore s.regs) u, ?_, hregs, hagree, ?_⟩
    · rw [restoreIssue_bytesOf henc s.regs hidle, step_pushRequest u (decode_encode rfl), exec_eq_stateAfter]
    · rw [stateAfter_pending, hidle]
  · rw [restoreIssue, restoreRequests_unreadable enc bytes hbytes]

end Sys2Proof.Machine
end
